-- ==== Sys2Proof/Word.lean ====
section
/-! DEFINITION. The widths of the part's words, addresses and numbers. -/

namespace Sys2Proof

/-- A data word of memory and of the upstream bus (00, Principal figures). -/
abbrev Word := BitVec 16

/-- One byte lane of a word, or one byte of the control link. -/
abbrev Byte := BitVec 8

/-- A word address as the 21 upstream address lines carry it (R21). -/
abbrev Addr := BitVec 21

/-- A 32-bit quantity kept in two words of memory (00, Addresses): a group number, a base, a count. -/
abbrev Long := BitVec 32

/-- A group number (R1, R3). -/
abbrev GroupNo := BitVec 32

end Sys2Proof
end

