-- ==== Sys2Proof/Machine/Bits.lean ====
section
/-! DEFINITION. Byte lanes, halves, bytes and saturating counts of words, and the command bytes. -/

namespace Sys2Proof

/-- The upper lane of a word, bits 15 to 8. -/
def hiByte (w : Word) : Byte := w.extractLsb' 8 8

/-- The lower lane of a word, bits 7 to 0. -/
def loByte (w : Word) : Byte := w.extractLsb' 0 8

/-- The word of two lanes. -/
def joinBytes (h l : Byte) : Word := h ++ l

/-- The upper 16 bits of a 32-bit quantity, held in the lower-addressed word. -/
def upperWord (x : Long) : Word := x.extractLsb' 16 16

/-- The lower 16 bits of a 32-bit quantity. -/
def lowerWord (x : Long) : Word := x.extractLsb' 0 16

/-- The 32-bit quantity of two consecutive words. -/
def joinWords (h l : Word) : Long := h ++ l

/-- Word `i` of a structure of words. -/
def wordAt (ws : List Word) (i : Nat) : Word := ws.getD i 0

/-- One more, staying at 65,535 (00, Counts). -/
def satInc (w : Word) : Word := if w = 0xFFFF#16 then w else w + 1

/-- `n` more, staying at 65,535 (00, Counts). -/
def satAdd (w : Word) (n : Nat) : Word := BitVec.ofNat 16 (min 65535 (w.toNat + n))

/-- The two bytes of a word, most significant first (R163). -/
def bytes2 (w : Word) : List Byte := [hiByte w, loByte w]

/-- The three bytes of a 24-bit quantity, most significant first. -/
def bytes3 (x : BitVec 24) : List Byte := [x.extractLsb' 16 8, x.extractLsb' 8 8, x.extractLsb' 0 8]

/-- The four bytes of a 32-bit quantity, most significant first. -/
def bytes4 (x : Long) : List Byte := bytes2 (upperWord x) ++ bytes2 (lowerWord x)

/-- The command bytes of the command summary (10.2): 01h to 0Dh. -/
def knownCode (code : Byte) : Bool := decide (0x01#8 ≤ code) && decide (code ≤ 0x0D#8)

end Sys2Proof
end

