-- ==== Sys2Proof/Syntax.lean ====
section
/-! DEFINITION. The commands of the part: one constructor per row of spec/opcode_table.json. -/

namespace Sys2Proof

/-- The two filtered input lines (R104). -/
inductive InputLine where
  | pfail
  | fault
  deriving DecidableEq, Repr

/-- One command or event of the part, with the operands its rule names. -/
inductive Instr where
  /-- RESET (R37): either reset, with the straps MSIZE1, MSIZE0 and MAINT sampled at its end (R21, R153). -/
  | reset (msize : BitVec 2) (maint : Bool)
  /-- UPSTREAM_READ (R27): a read cycle to a word address. -/
  | upstreamRead (addr : Addr)
  /-- UPSTREAM_WRITE (R31): a write cycle with its data and its two lane strobes. -/
  | upstreamWrite (addr : Addr) (data : Word) (upper lower : Bool)
  /-- WAITING_WRITE_CLAIM (R33). -/
  | waitingWriteClaim
  /-- PENDING_COMMIT_CLAIM (R54). -/
  | pendingCommitClaim
  /-- WAIT_LIMIT_EXPIRY (R33, R30). -/
  | waitLimitExpiry
  /-- ARBITER_GRANT (R39). -/
  | arbiterGrant
  /-- ACCESS_COMPLETE (R38): `answer` is `none` when the memory does what it should, or the word that it
  returns (a read) or holds afterwards (a write) instead (log 6). -/
  | accessComplete (answer : Option Word)
  /-- TAKE_HEAD (R65). -/
  | takeHead
  /-- LIVE_ROLLBACK_BEGIN (R124). -/
  | liveRollbackBegin
  /-- SEAL_EDGE (R55): a sample finds SEAL asserted. -/
  | sealEdge
  /-- LINE_EVENT (R104). -/
  | lineEvent (line : InputLine)
  /-- LINE_RELEASE (R104). -/
  | lineRelease (line : InputLine)
  /-- TICK (R177). -/
  | tick
  /-- AUTO_COMMIT_EXPIRY (R56). -/
  | autoCommitExpiry
  /-- ATTN_PULSE_END (R180). -/
  | attnPulseEnd
  /-- FRAME_END (R166): CSN rises after `bytes` whole bytes of the frame. -/
  | frameEnd (bytes : Nat)
  /-- UNKNOWN_COMMAND (R165): a command byte that is no known code. -/
  | unknownCommand (code : Byte)
  /-- STATUS (R169). -/
  | status
  /-- COMMIT (R52). -/
  | commit
  /-- LOAD_TABLE (R88): the table base, 3 bytes. -/
  | loadTable (base : BitVec 24)
  /-- THAW (R120). -/
  | thaw
  /-- ROLLBACK (R119). -/
  | rollback
  /-- FORMAT (R154): window base, 3 bytes, and slot count, 2 bytes. -/
  | format (base : BitVec 24) (slots : Word)
  /-- SET (R171): setting id and value. -/
  | set (id : Byte) (value : Word)
  /-- SET_CLOCK_RATE (R177). -/
  | setClockRate (value : Word)
  /-- SET_FREEZE_MASK (R106). -/
  | setFreezeMask (value : Word)
  /-- SET_FAULT_POLARITY (R105). -/
  | setFaultPolarity (value : Word)
  /-- SET_FREEZE_SCOPE (R33). -/
  | setFreezeScope (value : Word)
  /-- SET_AUTO_COMMIT_INTERVAL (R56). -/
  | setAutoCommitInterval (value : Word)
  /-- SET_EVENT_ENABLES (R179). -/
  | setEventEnables (value : Word)
  /-- SET_ATTN_MODE (R179). -/
  | setAttnMode (value : Word)
  /-- GET (R171): setting id. -/
  | get (id : Byte)
  /-- CLEAR_EVENTS (R172): mask. -/
  | clearEvents (mask : Word)
  /-- READ_REPORT (R173): report id. -/
  | readReport (id : Byte)
  /-- CLEAR_WATCH (R150): unit number. -/
  | clearWatch (unit : Byte)
  /-- CLEAR_COUNTERS (R181). -/
  | clearCounters
  /-- FREEZE (R118): action code. -/
  | freeze (action : Byte)
  /-- CHIP_SELECT_REMOVED (R22). -/
  | chipSelectRemoved
  /-- FRAME_START (R163). -/
  | frameStart
  /-- LINE_RUN_BEGIN (R104). -/
  | lineRunBegin (line : InputLine)
  /-- SEAL_NEGATED (R55): a sample finds SEAL negated. -/
  | sealNegated
  /-- FIRST_SAMPLE (R55, R104): the first sample after a reset, with SEAL asserted or not and the
  electrical levels of PFAIL and FAULT (`true` is HIGH). -/
  | firstSample (sealAsserted pfailHigh faultHigh : Bool)
  deriving DecidableEq, Repr

end Sys2Proof
end

