-- ==== Sys2Proof/Decode.lean ====
section
/-! DEFINITION. Words that spell commands (spec/opcode_table.json gives no row bits, so no word does), and the bytes of a control link frame that do. -/

namespace Sys2Proof

/-- The command that a word spells by the table's bits. Every row of the table has empty fields and no
pattern, so no word spells a command (log 24). -/
def decodeTableWord (_nbits _w : Nat) : Option Instr := none

/-! ### Frames of the control link (10.1, 10.2) -/

/-- The SET command of a setting id: the row of its own where the table gives it one (log 27). -/
def setCommand (id : Byte) (v : Word) : Instr :=
  match id.toNat with
  | 0x01 => .setClockRate v
  | 0x05 => .setFaultPolarity v
  | 0x06 => .setFreezeMask v
  | 0x0A => .setFreezeScope v
  | 0x0C => .setAutoCommitInterval v
  | 0x0D => .setAttnMode v
  | 0x0F => .setEventEnables v
  | _ => .set id v

/-- Three parameter bytes, most significant first (R163). -/
def joinThree (a b c : Byte) : BitVec 24 := a ++ b ++ c

/-- The command of a known command byte, by its number, and its parameter bytes: `none` for any other number
of them (10.2). -/
def knownFrame (code : Nat) (params : List Byte) : Option Instr :=
  match code, params with
  | 0x01, [] => some .status
  | 0x02, [] => some .commit
  | 0x03, [a, b, c] => some (.loadTable (joinThree a b c))
  | 0x04, [] => some .thaw
  | 0x05, [] => some .rollback
  | 0x06, [a, b, c, h, l] => some (.format (joinThree a b c) (joinBytes h l))
  | 0x07, [id, h, l] => some (setCommand id (joinBytes h l))
  | 0x08, [id] => some (.get id)
  | 0x09, [h, l] => some (.clearEvents (joinBytes h l))
  | 0x0A, [id] => some (.readReport id)
  | 0x0B, [unit] => some (.clearWatch unit)
  | 0x0C, [] => some .clearCounters
  | 0x0D, [action] => some (.freeze action)
  | _, _ => none

/-- The command that is taken as the last of these bytes of a frame is completed: the command byte and its
parameters, most significant byte first (R163, R164). `none` while parameter bytes are still to come, and
behind them. A byte that is no known code is taken at once (R165). -/
def frameCommand : List Byte → Option Instr
  | [] => none
  | code :: params =>
    if knownCode code then knownFrame code.toNat params
    else if params = [] then some (.unknownCommand code)
    else none

/-- The bytes of a SET frame up to its taking. -/
def setBytes (id : Byte) (v : Word) : List Byte := 0x07#8 :: id :: bytes2 v

/-- The bytes of a frame up to the taking of its command; none for a row that no frame carries
(R164, 10.2). -/
def Instr.frameBytes : Instr → List Byte
  | .status => [0x01#8]
  | .commit => [0x02#8]
  | .loadTable base => 0x03#8 :: bytes3 base
  | .thaw => [0x04#8]
  | .rollback => [0x05#8]
  | .format base slots => 0x06#8 :: bytes3 base ++ bytes2 slots
  | .set id v => setBytes id v
  | .setClockRate v => setBytes 0x01#8 v
  | .setFaultPolarity v => setBytes 0x05#8 v
  | .setFreezeMask v => setBytes 0x06#8 v
  | .setFreezeScope v => setBytes 0x0A#8 v
  | .setAutoCommitInterval v => setBytes 0x0C#8 v
  | .setAttnMode v => setBytes 0x0D#8 v
  | .setEventEnables v => setBytes 0x0F#8 v
  | .get id => [0x08#8, id]
  | .clearEvents mask => 0x09#8 :: bytes2 mask
  | .readReport id => [0x0A#8, id]
  | .clearWatch unit => [0x0B#8, unit]
  | .clearCounters => [0x0C#8]
  | .freeze action => [0x0D#8, action]
  | .unknownCommand code => [code]
  | .reset _ _ | .upstreamRead _ | .upstreamWrite _ _ _ _ | .waitingWriteClaim | .pendingCommitClaim
  | .waitLimitExpiry | .arbiterGrant | .accessComplete _ | .takeHead | .liveRollbackBegin | .sealEdge
  | .lineEvent _ | .lineRelease _ | .tick | .autoCommitExpiry | .attnPulseEnd | .frameEnd _
  | .chipSelectRemoved | .frameStart | .lineRunBegin _ | .sealNegated | .firstSample _ _ _ => []

end Sys2Proof
end

