-- ==== Sys2Proof/Config.lean ====
section
/-! DEFINITION. The fixed figures of the part and the free values the manual leaves open. -/

namespace Sys2Proof.Config

/-- Entries of the Posted Write Queue (R43). -/
def queueSize : Nat := 16

/-- Lines of the line filter (R48). -/
def filterSize : Nat := 64

/-- Descriptors of the longest region table (00, Principal figures). -/
def maxDescriptors : Nat := 16

/-- The greatest group number a seal token carries (R4). -/
def lastGroup : GroupNo := 0xFFFFFFFE#32

/-- The value of I at which the group numbers are used up (R4). -/
def usedUpGroup : GroupNo := 0xFFFFFFFF#32

/-- Kind word of a LINE record (00, Codes). -/
def lineKind : Word := 0x5A31#16

/-- Kind word of an ANCHOR (00, Codes). -/
def anchorKind : Word := 0x5A32#16

/-- CLK periods of a microsecond after either reset: CLOCK RATE 16 (R177). -/
def resetClockRate : Nat := 16

/-- What a byte of memory that nothing has written reads as. DESIGN CHOICE, unsafe (log 5): the
manual gives a new memory no contents. -/
def unlistedByte : Byte := 0

/-- FREE VALUE (log 8): which of several events that may be taken is taken first. -/
opaque freeChoice : Nat → Nat

/-- FREE VALUE (log 7): what a word write that a reset cuts off leaves in its word (R37). -/
opaque cutWord : Nat → Word

/-- FREE VALUE (log 18): what the three base bytes of the TABLE report show when the table base of an
anchor does not fit in them (R175 states no value). -/
opaque wideBase : Long → BitVec 24

end Sys2Proof.Config
end

