-- ==== Sys2Proof/Machine/State.lean ====
section
/-! DEFINITION. The state of the part: every piece of state the spec names, as plain data, and its value right after reset. -/

namespace Sys2Proof.Machine

/-! ### Names the manual uses -/

/-- The lanes a cycle or queued write touches (00, Byte lanes). -/
inductive Lanes where
  | upper
  | lower
  | both
  deriving DecidableEq, Repr

/-- The direction of an upstream cycle (R22). -/
inductive Direction where
  | read
  | write
  deriving DecidableEq, Repr

/-- How the Region Map treats an address (R24). -/
inductive RegionClass where
  | direct
  | journaled
  | guarded
  | closed
  | reserved
  deriving DecidableEq, Repr

/-- The operating states (R102). -/
inductive OpState where
  | recovering
  | unformatted
  | formatting
  | running
  | frozen
  deriving DecidableEq, Repr

/-- The freeze actions, weakest first (R108). -/
inductive Action where
  | none
  | sealGroup
  | stop
  | rollback
  deriving DecidableEq, Repr

/-- The freeze causes (R103). -/
inductive Cause where
  | pfail
  | fault
  | watch
  | soft
  | jfull
  | verify
  | table
  | anchor
  | exhausted
  deriving DecidableEq, Repr

/-- The origins of a rollback or recovery (R133). -/
inductive Origin where
  | startUp
  | command
  | pfail
  | fault
  | watch
  | soft
  | jfull
  | verify
  deriving DecidableEq, Repr

/-- The reasons of a refusal (R35). -/
inductive Reason where
  | cls
  | watch
  | gate
  | state
  | timeout
  deriving DecidableEq, Repr

/-- The result codes of the control link (R168). -/
inductive Result where
  | none
  | done
  | busy
  | badReq
  | empty
  | notFrozen
  | openGroup
  | triggerActive
  | noTable
  | unformatted
  | notPermitted
  deriving DecidableEq, Repr

/-- FAULT POLARITY (R104). -/
inductive Polarity where
  | highActive
  | lowActive
  deriving DecidableEq, Repr

/-- FREEZE SCOPE (R31). -/
inductive Scope where
  | journaledOnly
  | allWrites
  deriving DecidableEq, Repr

/-- ATTN MODE (R179). -/
inductive AttnMode where
  | level
  | pulse
  deriving DecidableEq, Repr

/-- The action of a watch unit, weakest first (R141, R149). -/
inductive WatchAction where
  | note
  | refuse
  | freeze
  deriving DecidableEq, Repr

/-! ### Watch units and settings -/

/-- The settings of one watch unit (R141, R142). `enables` has 1 for ADDRESS, 2 for DIRECTION, 4 for
DATA and 8 for CLASS. -/
structure WatchSettings where
  low       : Addr
  high      : Addr
  direction : Direction
  value     : Word
  mask      : Word
  cls       : RegionClass
  enables   : BitVec 4
  action    : WatchAction
  deriving DecidableEq, Repr

/-- The first-hit capture of a watch unit (R148). -/
structure WatchCapture where
  addr      : Addr
  direction : Direction
  lanes     : Lanes
  data      : Word
  cls       : RegionClass
  group     : GroupNo
  tick      : Word
  deriving DecidableEq, Repr

/-- One watch unit: settings and results (R141). -/
structure WatchUnit where
  settings : WatchSettings
  hits     : Word
  capture  : Option WatchCapture
  deriving DecidableEq, Repr

/-- Four of a kind, numbered 0 to 3. -/
structure Four (α : Type) where
  u0 : α
  u1 : α
  u2 : α
  u3 : α
  deriving DecidableEq, Repr

/-- The settings of R170 other than those of the watch units. -/
structure Settings where
  clockRate     : Word
  waitLimit     : Word
  streakLimit   : Word
  inputFilter   : Word
  faultPolarity : Polarity
  pfailEnabled  : Bool
  faultEnabled  : Bool
  pfailAction   : Action
  faultAction   : Action
  watchAction   : Action
  scope         : Scope
  verify        : Bool
  autoInterval  : Word
  attnMode      : AttnMode
  attnWidth     : Word
  enables       : BitVec 13
  deriving DecidableEq, Repr

/-! ### Straps, Upstream Port and Downstream Port -/

/-- The straps as sampled at the end of the last reset (R21, R153). -/
structure Straps where
  msize : BitVec 2
  maint : Bool
  deriving DecidableEq, Repr

/-- Where the current upstream cycle stands: a write waiting for queue space (R33), a read waiting for
the Downstream Port or granted (R39), or a JOURNALED read held during a rollback (R30). -/
inductive CyclePhase where
  | waitingWrite
  | reading
  | readHeld
  deriving DecidableEq, Repr

/-- The current upstream cycle (R22), with the watch settings it arrived under (R151). -/
structure Cycle where
  addr      : Addr
  direction : Direction
  lanes     : Lanes
  data      : Word
  cls       : RegionClass
  tag       : Word
  watch     : Four WatchSettings
  phase     : CyclePhase
  deriving DecidableEq, Repr

/-- A running wait timer: microseconds so far, and the limit in force when the hold began (R34). -/
structure WaitTimer where
  elapsed : Nat
  limit   : Nat
  deriving DecidableEq, Repr

/-- The Upstream Port (R22): current cycle, wait timer (`none`: stopped), the lines UWAIT and UBERR
(`true`: asserted), and the word the last read put on the data lines (log 21). -/
structure Upstream where
  cycle    : Option Cycle
  timer    : Option WaitTimer
  uwait    : Bool
  uberr    : Bool
  readData : Option Word
  deriving DecidableEq, Repr

/-- The two claimants of the Downstream Port (R38). -/
inductive Owner where
  | upstream
  | engine
  deriving DecidableEq, Repr

/-- One access of one word: a read, or a write of some lanes (R38). -/
structure Access where
  addr  : Nat
  write : Option (Word × Lanes)
  deriving DecidableEq, Repr

/-- The Downstream Port: the access under way, and the read streak count (R38, R39). -/
structure Port where
  access : Option (Owner × Access)
  streak : Nat
  deriving DecidableEq, Repr

/-! ### Intake and the Posted Write Queue -/

/-- The auto-commit elapsed count (R56): `due` while the count has reached the interval at a tick and
Intake has not yet taken the request (log 17). -/
structure AutoCommit where
  count   : Word
  running : Bool
  due     : Bool
  deriving DecidableEq, Repr

/-- Intake (R45). `interval` is the auto-commit interval in force: the setting as the last tick found it
(R56, log 17). `sealSample` is `none` before the first sample after a reset, else whether SEAL was found
asserted. -/
structure Intake where
  group         : GroupNo
  dirty         : Bool
  filter        : List Addr
  removed       : List Addr
  pendingCommit : Bool
  auto          : AutoCommit
  interval      : Word
  sealSample    : Option Bool
  deriving DecidableEq, Repr

/-- What a JOURNALED WRITE entry carries beside its data (R42). -/
structure JournalMark where
  group     : GroupNo
  copyFirst : Bool
  note      : Bool
  deriving DecidableEq, Repr

/-- A WRITE entry: JOURNALED when it has a mark, DIRECT when it has none (R42). -/
structure WriteEntry where
  addr  : Addr
  data  : Word
  lanes : Lanes
  mark  : Option JournalMark
  deriving DecidableEq, Repr

/-- The base and entry count of a table (R42). -/
structure TableRef where
  base  : Long
  count : Word
  deriving DecidableEq, Repr

/-- An entry of the Posted Write Queue (R42). -/
inductive Entry where
  | write (w : WriteEntry)
  | sealToken (group : GroupNo) (switch : Option TableRef)
  | tableToken (base : Long)
  deriving DecidableEq, Repr

/-- The Posted Write Queue, head first, with its two discard counts (R43, R61). -/
structure Posted where
  entries         : List Entry
  discardedWrites : Word
  discardedTokens : Word
  deriving DecidableEq, Repr

/-! ### Region Map -/

/-- An on-chip copy of a region descriptor (5.1). -/
structure Descriptor where
  first : Long
  last  : Long
  cls   : RegionClass
  flags : Word
  tag   : Word
  deriving DecidableEq, Repr

/-- A table held on chip: its base and its descriptors in order (R85). -/
structure Table where
  base  : Long
  descs : List Descriptor
  deriving DecidableEq, Repr

/-- The table state (R85): PENDING with the pending base, READY with the staged table. -/
inductive TableState where
  | none
  | pending (base : Long)
  | ready (staged : Table)
  deriving DecidableEq, Repr

/-- The outcomes of a table read (R92). -/
inductive TableOutcome where
  | notRun
  | accepted
  | check
  | cls
  | range
  | order
  | align
  | reserved
  | noEnd
  | lock
  deriving DecidableEq, Repr

/-- The origins of a table read (R92). -/
inductive TableOrigin where
  | load
  | startUp
  deriving DecidableEq, Repr

/-- The table result (R92). -/
structure TableResult where
  outcome : TableOutcome
  origin  : TableOrigin
  base    : Long
  read    : Nat
  index   : Nat
  tick    : Word
  deriving DecidableEq, Repr

/-- The Region Map (R85). -/
structure RegionMap where
  active   : Option Table
  state    : TableState
  retiring : Option Table
  result   : TableResult
  deriving DecidableEq, Repr

/-! ### Store Engine -/

/-- The durable configuration (R9). -/
structure Durable where
  windowBase  : Long
  slotCount   : Word
  tableBase   : Long
  tableCount  : Word
  formatCount : Long
  deriving DecidableEq, Repr

/-- Progress of a run of single-word writes and its read-back: the word next written, or the word next
read back and whether a difference has been found (R7, R66). -/
inductive BurstPhase where
  | writing (n : Nat)
  | checking (n : Nat) (differs : Bool)
  deriving DecidableEq, Repr

/-- A record, anchor, retraction or restored line being written word by word from `base` (R7). -/
structure Burst where
  base  : Nat
  words : List Word
  phase : BurstPhase
  deriving DecidableEq, Repr

/-- The drain of the begun head (R67 to R78), with the words read or written so far. `record` stands for
the stages RECORD and CHECK, `anchor` for ANCHOR and ANCHOR_CHECK. -/
inductive Drain where
  | copy (got : List Word)
  | record (b : Burst)
  | apply
  | anchor (b : Burst)
  | tableRead (got : List Word) (kept : List Descriptor)
  deriving DecidableEq, Repr

/-- Progress of a live rollback: retracting a failed anchor (R82), reading slot `j` whose check word must
be `expect` (R125), restoring the line of slot `j` (R126), or writing the VOIDED anchor (R127) after
stopping at a slot or not. -/
inductive RollPhase where
  | retract (b : Burst)
  | readSlot (j : Nat) (expect : Word) (got : List Word)
  | restore (j : Nat) (chain : Word) (b : Burst)
  | void (stop : Option Nat) (b : Burst)
  deriving DecidableEq, Repr

/-- A live rollback (R124): origin, group and record count as fixed at its beginning, and what its
report will give. -/
structure Rollback where
  origin     : Origin
  group      : GroupNo
  count      : Word
  restored   : Word
  mismatches : Word
  phase      : RollPhase
  deriving DecidableEq, Repr

/-- The classes of an anchor position (R11). -/
inductive AnchorClass where
  | valid
  | damaged
  | empty
  | torn
  deriving DecidableEq, Repr

/-- The stop reasons of the scan (R135). -/
inductive StopReason where
  | sequence
  | torn
  | windowEnd
  deriving DecidableEq, Repr

/-- Progress of start-up recovery: reading the anchors (R134), scanning slot `j` with the expected chain
(R135), reading slot `j` again and restoring it (R136), writing the VOIDED anchor (R137), loading the
table (R99). -/
inductive RecPhase where
  | anchors (got : List Word)
  | scan (j : Nat) (chain : Word) (got : List Word)
  | reread (j : Nat) (got : List Word)
  | restore (j : Nat) (b : Burst)
  | void (b : Burst)
  | table (got : List Word) (kept : List Descriptor)
  deriving DecidableEq, Repr

/-- A start-up recovery: what its report will give (R133), and its progress. -/
structure Recovery where
  classes    : Option (AnchorClass × AnchorClass)
  current    : Option Nat
  examined   : Option GroupNo
  found      : Word
  restored   : Word
  mismatches : Word
  stop       : Option (Word × StopReason)
  phase      : RecPhase
  deriving DecidableEq, Repr

/-- Progress of Format (R156): reading the anchors, clearing the anchor block from position `first` on,
clearing the window, writing the FORMATTED anchor, or zeroing it again (R159). -/
inductive FormatPhase where
  | anchors (got : List Word)
  | clearAnchors (first : Nat) (n : Nat)
  | clearWindow (n : Nat)
  | anchor (b : Burst)
  | retract (b : Burst)
  deriving DecidableEq, Repr

/-- A Format: its parameters, the format count it will write (R156 step 1), and its progress. -/
structure Format where
  base        : Long
  slots       : Word
  formatCount : Long
  phase       : FormatPhase
  deriving DecidableEq, Repr

/-- What the Store Engine is doing (R64). -/
inductive Work where
  | idle
  | draining (d : Drain)
  | rollingBack (r : Rollback)
  | recovering (r : Recovery)
  | formatting (f : Format)
  deriving DecidableEq, Repr

/-- The Store Engine (R64): work, closed group C, record count k, chain value, durable configuration, and
the abandoned group while the abandoned flag is set. -/
structure Engine where
  work      : Work
  closed    : GroupNo
  count     : Word
  chain     : Word
  durable   : Durable
  abandoned : Option GroupNo
  deriving DecidableEq, Repr

/-! ### Gate Controller -/

/-- The set of freeze causes (R103). -/
structure CauseSet where
  pfail     : Bool
  fault     : Bool
  watch     : Bool
  soft      : Bool
  jfull     : Bool
  verify    : Bool
  table     : Bool
  anchor    : Bool
  exhausted : Bool
  deriving DecidableEq, Repr

/-- One filtered input line (R103, R104): its filter state, the microseconds since the first sample of
the current run, whether its latest sample found the run at least the filter time long (log 12), and the
level of its last sample (`true`: HIGH). -/
structure InputState where
  active    : Bool
  run       : Option Nat
  qualified : Bool
  last      : Option Bool
  deriving DecidableEq, Repr

/-- The Gate Controller (R102, R103, R122, R183). `order` is the held rollback order with its origin. -/
structure Gate where
  opState : OpState
  causes  : CauseSet
  level   : Action
  order   : Option Origin
  pfail   : InputState
  fault   : InputState
  frz     : Bool
  ready   : Bool
  deriving DecidableEq, Repr

/-! ### Event Unit, Control Link and Timebase -/

/-- The eight counters of the Event Unit (R176, R181). -/
structure Counters where
  classRefusals : Word
  gateRefusals  : Word
  watchRefusals : Word
  waitTimeouts  : Word
  refusedReads  : Word
  rejournaled   : Word
  sealedGroups  : Word
  voidedGroups  : Word
  deriving DecidableEq, Repr

/-- The refusal capture (R182). -/
structure RefusalCapture where
  addr      : Addr
  direction : Direction
  reason    : Reason
  tag       : Word
  tick      : Word
  deriving DecidableEq, Repr

/-- The outcomes of a rollback or recovery (R133, R174). -/
inductive RestoreOutcome where
  | notRun
  | unformatted
  | anchorDamage
  | clean
  | rolledBack
  | rolledBackTorn
  | rolledBackEnd
  | voided
  | torn
  | empty
  deriving DecidableEq, Repr

/-- The restore report (R133). -/
structure RestoreReport where
  origin          : Origin
  outcome         : RestoreOutcome
  examined        : Option GroupNo
  closed          : GroupNo
  found           : Word
  restored        : Word
  stopSlot        : Option Word
  stopReason      : Option StopReason
  mismatches      : Word
  anchorIndex     : Option Nat
  classes         : Option (AnchorClass × AnchorClass)
  tornAnchor      : Bool
  discardedWrites : Word
  discardedTokens : Word
  tick            : Word
  deriving DecidableEq, Repr

/-- The Event Unit (R178 to R182, R133): `pulse` is the microseconds left of a timed ATTN pulse. -/
structure Events where
  flags    : BitVec 13
  counters : Counters
  refusal  : Option RefusalCapture
  restore  : RestoreReport
  attn     : Bool
  pulse    : Option Nat
  deriving DecidableEq, Repr

/-- A command taken in the frame in progress: its parameter byte count, result, and response bytes
captured in the taking (R164). -/
structure Taken where
  params   : Nat
  result   : Result
  response : List Byte
  deriving DecidableEq, Repr

/-- A frame in progress (R163): `taken` is `none` until its command has been taken. -/
structure Frame where
  taken : Option Taken
  deriving DecidableEq, Repr

/-- The Control Link (R163 to R166): CSN as the controller drives it, whether CSN has been seen high
since the last reset, the frame in progress, and the last frame result. -/
structure Link where
  csnLow   : Bool
  seenHigh : Bool
  frame    : Option Frame
  last     : Result
  deriving DecidableEq, Repr

/-- The Timebase (R177): CLK periods counted in this microsecond, the periods this microsecond takes,
microseconds counted in this tick, and the tick counter. -/
structure Timebase where
  clk   : Nat
  perUs : Nat
  us    : Nat
  tick  : Word
  deriving DecidableEq, Repr

/-- The downstream memory as cells: number 2a is the upper lane of word a, 2a + 1 its lower lane
(log 11). The cells stand in rising order and none holds what an unlisted lane reads as. -/
abbrev Memory := List Host.Cell

/-- The state of the part, with the queue of waiting commands. -/
structure State where
  straps   : Straps
  up       : Upstream
  port     : Port
  intake   : Intake
  queue    : Posted
  engine   : Engine
  region   : RegionMap
  gate     : Gate
  watch    : Four WatchUnit
  settings : Settings
  events   : Events
  link     : Link
  time     : Timebase
  mem      : Memory
  free     : Nat
  pending  : List Instr
  deriving DecidableEq, Repr

/-- The reasons the model stops. -/
inductive Fault where
  /-- Raised by UPSTREAM_READ and UPSTREAM_WRITE when a cycle is current. Safe: the manual says that the
  controller makes one cycle at a time and gives a second one no effect (log 4). -/
  | secondCycle
  deriving DecidableEq, Repr

/-- The reasons the model refuses a command. -/
inductive Refusal where
  /-- Raised by exec for a command that has no meaning yet. Safe. -/
  | notModelled (mnemonic : String)
  deriving DecidableEq, Repr

/-! ### Updates of one part of the state -/

namespace State

def setUp (s : State) (x : Upstream) : State := { s with up := x }
def setPort (s : State) (x : Port) : State := { s with port := x }
def setIntake (s : State) (x : Intake) : State := { s with intake := x }
def setQueue (s : State) (x : Posted) : State := { s with queue := x }
def setEngine (s : State) (x : Engine) : State := { s with engine := x }
def setRegion (s : State) (x : RegionMap) : State := { s with region := x }
def setGate (s : State) (x : Gate) : State := { s with gate := x }
def setWatch (s : State) (x : Four WatchUnit) : State := { s with watch := x }
def setSettings (s : State) (x : Settings) : State := { s with settings := x }
def setEvents (s : State) (x : Events) : State := { s with events := x }
def setLink (s : State) (x : Link) : State := { s with link := x }
def setTime (s : State) (x : Timebase) : State := { s with time := x }
def setMem (s : State) (x : Memory) : State := { s with mem := x }
def setFree (s : State) (x : Nat) : State := { s with free := x }
def setPending (s : State) (x : List Instr) : State := { s with pending := x }

end State

/-! ### Reset values -/

/-- A watch unit after reset (R141). -/
def resetWatchUnit : WatchUnit :=
  { settings := { low := 0, high := 0, direction := .read, value := 0, mask := 0, cls := .direct,
                  enables := 0, action := .note },
    hits := 0, capture := none }

/-- The settings after reset (R170). -/
def resetSettings : Settings :=
  { clockRate := 16, waitLimit := 64, streakLimit := 4, inputFilter := 2, faultPolarity := .highActive,
    pfailEnabled := true, faultEnabled := false, pfailAction := .stop, faultAction := .stop,
    watchAction := .stop, scope := .journaledOnly, verify := false, autoInterval := 0,
    attnMode := .level, attnWidth := 4, enables := 0 }

/-- The cause set with no cause. -/
def noCauses : CauseSet :=
  { pfail := false, fault := false, watch := false, soft := false, jfull := false, verify := false,
    table := false, anchor := false, exhausted := false }

/-- An input line after reset (R103). -/
def resetInput : InputState := { active := false, run := none, qualified := false, last := none }

/-- The counters at 0 (R181). -/
def zeroCounters : Counters :=
  { classRefusals := 0, gateRefusals := 0, watchRefusals := 0, waitTimeouts := 0, refusedReads := 0,
    rejournaled := 0, sealedGroups := 0, voidedGroups := 0 }

/-- The restore report after reset: NOT_RUN, every other field 0 or absent (R133). -/
def resetReport : RestoreReport :=
  { origin := .startUp, outcome := .notRun, examined := none, closed := 0, found := 0, restored := 0,
    stopSlot := none, stopReason := none, mismatches := 0, anchorIndex := none, classes := none,
    tornAnchor := false, discardedWrites := 0, discardedTokens := 0, tick := 0 }

/-- A recovery that has read nothing yet (R134). -/
def freshRecovery : Recovery :=
  { classes := none, current := none, examined := none, found := 0, restored := 0, mismatches := 0,
    stop := none, phase := .anchors [] }

/-- No window, no table, format count 0 (R9). -/
def noDurable : Durable :=
  { windowBase := 0, slotCount := 0, tableBase := 0, tableCount := 0, formatCount := 0 }

/-- The auto-commit count stopped at 0 (R45). -/
def stoppedAuto : AutoCommit := { count := 0, running := false, due := false }

/-- The part right after either reset (R37, R134), given the straps sampled at its end, CSN as the
controller holds it, the memory, the free-value counter and the waiting commands. -/
def State.afterReset (straps : Straps) (csnLow : Bool) (mem : Memory) (free : Nat)
    (pending : List Instr) : State :=
  { straps := straps,
    up := { cycle := none, timer := none, uwait := false, uberr := false, readData := none },
    port := { access := none, streak := 0 },
    intake := { group := 1, dirty := false, filter := [], removed := [], pendingCommit := false,
                auto := stoppedAuto, interval := 0, sealSample := none },
    queue := { entries := [], discardedWrites := 0, discardedTokens := 0 },
    engine := { work := .recovering freshRecovery, closed := 0, count := 0, chain := 0,
                durable := noDurable, abandoned := none },
    region := { active := none, state := .none, retiring := none,
                result := { outcome := .notRun, origin := .load, base := 0, read := 0, index := 0,
                            tick := 0 } },
    gate := { opState := .recovering, causes := noCauses, level := .none, order := none,
              pfail := resetInput, fault := resetInput, frz := false, ready := false },
    watch := { u0 := resetWatchUnit, u1 := resetWatchUnit, u2 := resetWatchUnit, u3 := resetWatchUnit },
    settings := resetSettings,
    events := { flags := 0, counters := zeroCounters, refusal := none, restore := resetReport,
                attn := false, pulse := none },
    link := { csnLow := csnLow, seenHigh := !csnLow, frame := none, last := .none },
    time := { clk := 0, perUs := Config.resetClockRate, us := 0, tick := 0 },
    mem := mem, free := free, pending := pending }

/-- The part right after power-on. DESIGN CHOICE, unsafe (log 9): MSIZE code 0, MAINT low, CSN high, a
memory with nothing listed; the RESET command gives every other choice. -/
def State.reset : State :=
  State.afterReset { msize := 0, maint := false } false [] 0 []

end Sys2Proof.Machine
end

