-- ==== Sys2Proof/Machine/Memory.lean ====
section
/-! DEFINITION. The downstream memory: cells of one byte lane in canonical form, words, and the sizes of R21. -/

namespace Sys2Proof.Machine

/-- The byte of cell `i`; an unlisted cell reads as `Config.unlistedByte` (log 5). -/
def Memory.byte : Memory → Nat → Byte
  | [], _ => Config.unlistedByte
  | (k, b) :: m, i => if k = i then b else Memory.byte m i

/-- Writes cell `i`, keeping the cells in rising order and listing none that holds the unlisted value. -/
def Memory.setByte : Memory → Nat → Byte → Memory
  | [], i, b => if b = Config.unlistedByte then [] else [(i, b)]
  | (k, c) :: m, i, b =>
    if i < k then (if b = Config.unlistedByte then (k, c) :: m else (i, b) :: (k, c) :: m)
    else if i = k then (if b = Config.unlistedByte then m else (i, b) :: m)
    else (k, c) :: Memory.setByte m i b

/-- The canonical form of the cells above a bound: rising, and none at the unlisted value. -/
def Memory.wfAbove : Nat → Memory → Bool
  | _, [] => true
  | n, (k, b) :: m => decide (n ≤ k) && decide (b ≠ Config.unlistedByte) && Memory.wfAbove (k + 1) m

/-- The canonical form of a memory. -/
def Memory.wf (m : Memory) : Bool := Memory.wfAbove 0 m

/-- The word at a word address: upper lane at cell 2a, lower lane at cell 2a + 1 (log 11). -/
def Memory.word (m : Memory) (a : Nat) : Word := joinBytes (m.byte (2 * a)) (m.byte (2 * a + 1))

/-- Writes the lanes of a word; a lane not written keeps its byte (R38). -/
def Memory.writeWord (m : Memory) (a : Nat) (w : Word) : Lanes → Memory
  | .upper => m.setByte (2 * a) (hiByte w)
  | .lower => m.setByte (2 * a + 1) (loByte w)
  | .both => (m.setByte (2 * a) (hiByte w)).setByte (2 * a + 1) (loByte w)

/-- The first word address beyond memory (R21). -/
def State.top (s : State) : Nat := 2 ^ (18 + s.straps.msize.toNat)

/-- The address of anchor position `idx` (R8). -/
def State.anchorAddr (s : State) (idx : Nat) : Nat := s.top - 32 + 16 * idx

/-- The word address of an upstream cycle: the lines within the address width (R21). -/
def State.cycleAddr (s : State) (a : Addr) : Addr := BitVec.ofNat 21 (a.toNat % s.top)

/-- Slot `j` of the journal window (R15). -/
def State.slotAddr (s : State) (j : Nat) : Nat := s.engine.durable.windowBase.toNat + 16 * j

/-- The open group D (R2). -/
def State.openGroup (s : State) : GroupNo := s.engine.closed + 1

/-- The line of a word address: its three lowest bits cleared (R46). -/
def lineOf (a : Addr) : Addr := a &&& 0x1FFFF8#21

end Sys2Proof.Machine
end

