-- ==== Sys2Proof/Machine/Flags.lean ====
section
/-! DEFINITION. The Event Unit's flags, the ATTN line, the counters and the tick of its reports. -/

namespace Sys2Proof.Machine

/-- The thirteen events (R172). -/
inductive Event where
  | groupSealed
  | voided
  | froze
  | tableReady
  | tableError
  | refused
  | waitOut
  | watch (n : Fin 4)
  | recovered
  | formatted
  deriving DecidableEq, Repr

/-- The bit position of an event (R172). -/
def Event.bit : Event → Nat
  | .groupSealed => 0
  | .voided => 1
  | .froze => 2
  | .tableReady => 3
  | .tableError => 4
  | .refused => 5
  | .waitOut => 6
  | .watch n => 7 + n.val
  | .recovered => 11
  | .formatted => 12

/-- The mask of an event's bit. -/
def Event.mask (e : Event) : BitVec 13 := 1#13 <<< e.bit

/-- A pulse request is taken: ATTN is asserted, to be negated one pulse width after this request (R180), also
where a shorter width in force puts that before the end already timed (log 40). -/
def Events.request (ev : Events) (cfg : Settings) : Events :=
  { ev with attn := true, pulse := some cfg.attnWidth.toNat }

/-- ATTN follows the enabled flags (R179). -/
def Events.level (ev : Events) (cfg : Settings) : Events :=
  { ev with attn := decide (ev.flags &&& cfg.enables ≠ 0) }

/-- Sets one flag. In LEVEL mode ATTN is evaluated again; in PULSE mode an enabled flag that was clear
makes a pulse request (R178, R179, R180). -/
def Events.raise (ev : Events) (cfg : Settings) (e : Event) : Events :=
  let ev' := { ev with flags := ev.flags ||| e.mask }
  match cfg.attnMode with
  | .level => ev'.level cfg
  | .pulse =>
    if ev.flags &&& e.mask = 0 ∧ cfg.enables &&& e.mask ≠ 0 then ev'.request cfg else ev'

/-- CLEAR EVENTS clears the flags of the mask. In PULSE mode a clear of an enabled flag that leaves an
enabled flag set makes a pulse request (R172, R178, R180 case 2). -/
def Events.clear (ev : Events) (cfg : Settings) (mask : BitVec 13) : Events :=
  let ev' := { ev with flags := ev.flags &&& ~~~ mask }
  match cfg.attnMode with
  | .level => ev'.level cfg
  | .pulse =>
    if ev.flags &&& mask &&& cfg.enables ≠ 0 ∧ ev'.flags &&& cfg.enables ≠ 0 then ev'.request cfg
    else ev'

/-- The flags' enables have been set from `old` to those of `cfg` (R179, R180 case 3). -/
def Events.enablesSet (ev : Events) (cfg : Settings) (old : BitVec 13) : Events :=
  match cfg.attnMode with
  | .level => ev.level cfg
  | .pulse => if cfg.enables &&& ~~~ old &&& ev.flags ≠ 0 then ev.request cfg else ev

/-- ATTN MODE has been changed to that of `cfg`: LEVEL ends a pulse and takes the level, PULSE negates
ATTN without a pulse (R179). -/
def Events.modeChanged (ev : Events) (cfg : Settings) : Events :=
  match cfg.attnMode with
  | .level => { ev with pulse := none }.level cfg
  | .pulse => { ev with attn := false, pulse := none }

/-- Raises an event in the Event Unit. -/
def raise (e : Event) (s : State) : State := s.setEvents (s.events.raise s.settings e)

/-- The names of the eight counters (R176). -/
inductive Counter where
  | classRefusals
  | gateRefusals
  | watchRefusals
  | waitTimeouts
  | refusedReads
  | rejournaled
  | sealedGroups
  | voidedGroups
  deriving DecidableEq, Repr

/-- One more on one counter, saturating (R181). -/
def Counters.inc (c : Counters) : Counter → Counters
  | .classRefusals => { c with classRefusals := satInc c.classRefusals }
  | .gateRefusals => { c with gateRefusals := satInc c.gateRefusals }
  | .watchRefusals => { c with watchRefusals := satInc c.watchRefusals }
  | .waitTimeouts => { c with waitTimeouts := satInc c.waitTimeouts }
  | .refusedReads => { c with refusedReads := satInc c.refusedReads }
  | .rejournaled => { c with rejournaled := satInc c.rejournaled }
  | .sealedGroups => { c with sealedGroups := satInc c.sealedGroups }
  | .voidedGroups => { c with voidedGroups := satInc c.voidedGroups }

/-- Counts one occurrence. -/
def count (c : Counter) (s : State) : State :=
  s.setEvents { s.events with counters := s.events.counters.inc c }

/-- The counter that a refusal's reason adds to (R35). -/
def Reason.counter : Reason → Counter
  | .cls => .classRefusals
  | .watch => .watchRefusals
  | .gate => .gateRefusals
  | .state => .gateRefusals
  | .timeout => .waitTimeouts

/-- The event that a refusal's reason raises (R35). -/
def Reason.event : Reason → Event
  | .timeout => .waitOut
  | .cls => .refused
  | .watch => .refused
  | .gate => .refused
  | .state => .refused

end Sys2Proof.Machine
end

