-- ==== Sys2Proof/Machine/Records.lean ====
section
/-! DEFINITION. The durable structures: check word, anchors, LINE records and descriptors as words of memory. -/

namespace Sys2Proof.Machine

/-! ### Check word (R6) -/

/-- The sum of words modulo 65,536. -/
def wordSum (ws : List Word) : Word := ws.foldr (· + ·) 0

/-- The check word of the other words of a structure. -/
def checkWord (ws : List Word) : Word := ~~~ wordSum ws

/-- The check word matches: all words together sum to FFFFh. -/
def checkOk (ws : List Word) : Bool := decide (wordSum ws = 0xFFFF#16)

/-- A structure's words with its check word last. -/
def withCheck (ws : List Word) : List Word := ws ++ [checkWord ws]

/-- All words are 0: the structure is EMPTY. -/
def allZero (ws : List Word) : Bool := ws.all (fun w => decide (w = 0))

/-! ### Anchors (1.3) -/

/-- The fields of an anchor between its kind word and its check word. -/
structure Anchor where
  group       : GroupNo
  outcome     : Word
  windowBase  : Long
  slotCount   : Word
  tableBase   : Long
  tableCount  : Word
  index       : Word
  records     : Word
  msize       : Word
  formatCount : Long
  deriving DecidableEq, Repr

/-- The 16 words of an anchor. -/
def Anchor.words (a : Anchor) : List Word :=
  withCheck [Config.anchorKind, upperWord a.group, lowerWord a.group, a.outcome,
    upperWord a.windowBase, lowerWord a.windowBase, a.slotCount, upperWord a.tableBase,
    lowerWord a.tableBase, a.tableCount, a.index, a.records, a.msize,
    upperWord a.formatCount, lowerWord a.formatCount]

/-- The fields that 16 words hold as an anchor. -/
def anchorOf (ws : List Word) : Anchor :=
  { group := joinWords (wordAt ws 1) (wordAt ws 2), outcome := wordAt ws 3,
    windowBase := joinWords (wordAt ws 4) (wordAt ws 5), slotCount := wordAt ws 6,
    tableBase := joinWords (wordAt ws 7) (wordAt ws 8), tableCount := wordAt ws 9,
    index := wordAt ws 10, records := wordAt ws 11, msize := wordAt ws 12,
    formatCount := joinWords (wordAt ws 13) (wordAt ws 14) }

/-- A window is illegal when its base is no multiple of 16, it has below 16 slots, or its last word lies
at or above anchor 0 (R11 item 7, R154 row 3). -/
def windowIllegal (base : Long) (slots : Word) (anchor0 : Nat) : Bool :=
  decide (base.toNat % 16 ≠ 0) || decide (slots.toNat < 16) ||
    decide (anchor0 ≤ base.toNat + 16 * slots.toNat - 1)

/-- The nine reasons of R11 for which a structurally valid anchor is DAMAGED. -/
def anchorDamaged (msize : BitVec 2) (anchor0 : Nat) (pos : Nat) (a : Anchor) : Bool :=
  decide (a.index.toNat ≠ pos) ||
  decide (a.group.toNat % 2 ≠ pos) ||
  decide (a.msize.toNat ≠ msize.toNat) ||
  decide (¬ (a.outcome = 1 ∨ a.outcome = 2 ∨ a.outcome = 3)) ||
  decide (a.outcome = 1 ∧ a.group ≠ 0) || decide (a.group = 0 ∧ a.outcome ≠ 1) ||
  decide (a.group = Config.usedUpGroup) ||
  windowIllegal a.windowBase a.slotCount anchor0 ||
  decide (16 < a.tableCount.toNat) ||
  decide (a.slotCount.toNat < a.records.toNat)

/-- An anchor position is structurally valid (R6). -/
def anchorIntact (ws : List Word) : Bool :=
  decide (wordAt ws 0 = Config.anchorKind) && checkOk ws

/-- The class of an anchor position as read (R11). -/
def classifyAnchor (msize : BitVec 2) (anchor0 : Nat) (pos : Nat) (ws : List Word) : AnchorClass :=
  if anchorIntact ws then
    if anchorDamaged msize anchor0 pos (anchorOf ws) then .damaged else .valid
  else if allZero ws then .empty
  else .torn

/-- The state of memory that the two anchor positions show (R14). -/
inductive AnchorState where
  | unformatted
  | damage
  | current (idx : Nat) (a : Anchor)
  deriving DecidableEq, Repr

/-- Decides the state of memory from both positions (R14). -/
def decideAnchors (c0 c1 : AnchorClass) (a0 a1 : Anchor) : AnchorState :=
  match c0, c1 with
  | .damaged, _ => .damage
  | _, .damaged => .damage
  | .valid, .valid =>
    if a0.formatCount ≠ a1.formatCount then .damage
    else if a0.group.toNat = a1.group.toNat + 1 then .current 0 a0
    else if a1.group.toNat = a0.group.toNat + 1 then .current 1 a1
    else .damage
  | .valid, _ => .current 0 a0
  | _, .valid => .current 1 a1
  | _, _ => .unformatted

/-- The durable configuration that a current anchor gives (R9). -/
def Anchor.durable (a : Anchor) : Durable :=
  { windowBase := a.windowBase, slotCount := a.slotCount, tableBase := a.tableBase,
    tableCount := a.tableCount, formatCount := a.formatCount }

/-- The memory size code as a word of an anchor. -/
def State.msizeWord (s : State) : Word := s.straps.msize.zeroExtend 16

/-- The index word of group `g` (R12). -/
def groupIndex (g : GroupNo) : Nat := g.toNat % 2

/-- The SEALED anchor of the open group (R10, R74), with the table of the switch if there is one. -/
def State.sealedAnchor (s : State) (switch : Option TableRef) : Anchor :=
  let d := s.engine.durable
  { group := s.openGroup, outcome := 2, windowBase := d.windowBase, slotCount := d.slotCount,
    tableBase := match switch with | some t => t.base | none => d.tableBase,
    tableCount := match switch with | some t => t.count | none => d.tableCount,
    index := BitVec.ofNat 16 (groupIndex s.openGroup), records := s.engine.count,
    msize := s.msizeWord, formatCount := d.formatCount }

/-- The VOIDED anchor of group `g` with `records` records (R10, R127, R137). -/
def State.voidedAnchor (s : State) (g : GroupNo) (records : Word) : Anchor :=
  let d := s.engine.durable
  { group := g, outcome := 3, windowBase := d.windowBase, slotCount := d.slotCount,
    tableBase := d.tableBase, tableCount := d.tableCount, index := BitVec.ofNat 16 (groupIndex g),
    records := records, msize := s.msizeWord, formatCount := d.formatCount }

/-- The FORMATTED anchor (R10, R156). -/
def State.formattedAnchor (s : State) (f : Format) : Anchor :=
  { group := 0, outcome := 1, windowBase := f.base, slotCount := f.slots, tableBase := 0,
    tableCount := 0, index := 0, records := 0, msize := s.msizeWord, formatCount := f.formatCount }

/-! ### LINE records (1.4) -/

/-- The 16 words of a LINE record (R16). -/
def recordWords (group : GroupNo) (ordinal : Word) (line : Long) (image : List Word) (chain : Word) :
    List Word :=
  withCheck ([Config.lineKind, upperWord group, lowerWord group, ordinal, upperWord line,
    lowerWord line] ++ image ++ [chain])

/-- Group number of a record's words. -/
def recordGroup (ws : List Word) : GroupNo := joinWords (wordAt ws 1) (wordAt ws 2)

/-- Line address of a record's words. -/
def recordLine (ws : List Word) : Long := joinWords (wordAt ws 4) (wordAt ws 5)

/-- The eight image words of a record's words. -/
def recordImage (ws : List Word) : List Word := (ws.drop 6).take 8

/-- Chain field of a record's words. -/
def recordChain (ws : List Word) : Word := wordAt ws 14

/-- Check word of a record's words. -/
def recordCheck (ws : List Word) : Word := wordAt ws 15

/-- A line address is legal: a multiple of 8 below the anchor block (R20, R125). -/
def lineLegal (line : Long) (anchor0 : Nat) : Bool :=
  decide (line.toNat % 8 = 0) && decide (line.toNat < anchor0)

/-- The classes of a journal slot (R20). -/
inductive SlotClass where
  | belongs
  | torn
  | empty
  | foreign
  deriving DecidableEq, Repr

/-- The class of a slot against an expected group, ordinal and chain (R20). -/
def classifySlot (g : GroupNo) (j : Nat) (chain : Word) (anchor0 : Nat) (ws : List Word) : SlotClass :=
  if wordAt ws 0 = Config.lineKind ∧ recordGroup ws = g then
    if checkOk ws ∧ (wordAt ws 3).toNat = j ∧ recordChain ws = chain ∧
        lineLegal (recordLine ws) anchor0 then .belongs
    else .torn
  else if allZero ws then .empty
  else .foreign

/-- A slot belongs to the group being rolled back live (R125 items 1 to 5). -/
def slotBelongs (g : GroupNo) (j : Nat) (expect : Word) (anchor0 : Nat) (ws : List Word) : Bool :=
  decide (wordAt ws 0 = Config.lineKind) && checkOk ws && decide (recordGroup ws = g) &&
  decide ((wordAt ws 3).toNat = j) && lineLegal (recordLine ws) anchor0 &&
  decide (recordCheck ws = expect) && decide (j = 0 → recordChain ws = 0)

/-- A slot read again during recovery still matches (R136). -/
def slotStill (g : GroupNo) (j : Nat) (ws : List Word) : Bool :=
  checkOk ws && decide (recordGroup ws = g) && decide ((wordAt ws 3).toNat = j)

/-! ### Descriptors (5.1) -/

/-- The class that a class word gives, if it is legal (00, Codes). -/
def classOfWord (w : Word) : Option RegionClass :=
  if w = 0 then some .direct
  else if w = 1 then some .journaled
  else if w = 2 then some .guarded
  else if w = 3 then some .closed
  else none

/-- First word address of a descriptor's words. -/
def descFirst (ws : List Word) : Long := joinWords (wordAt ws 0) (wordAt ws 1)

/-- Last word address of a descriptor's words. -/
def descLast (ws : List Word) : Long := joinWords (wordAt ws 2) (wordAt ws 3)

/-- The flag END. -/
def Descriptor.isEnd (d : Descriptor) : Bool := d.flags.getLsbD 0

/-- The flag LOCK. -/
def Descriptor.isLock (d : Descriptor) : Bool := d.flags.getLsbD 1

/-! ### Runs of single-word writes (R7, R66) -/

/-- A run that has written nothing yet. -/
def newBurst (base : Nat) (words : List Word) : Burst :=
  { base := base, words := words, phase := .writing 0 }

/-- The access a run makes next. -/
def Burst.access (b : Burst) : Access :=
  match b.phase with
  | .writing n => { addr := b.base + n, write := some (wordAt b.words n, .both) }
  | .checking n _ => { addr := b.base + n, write := none }

/-- What a completed access makes of a run: it goes on, or it has ended, with or without a difference. -/
inductive BurstStep where
  | more (b : Burst)
  | ended (mismatch : Bool)
  deriving DecidableEq, Repr

/-- One access of a run completes. VERIFY is read as the last word is written, and decides whether the
words are read back; the decision is made after the last read (R66, R69). -/
def Burst.advance (b : Burst) (verify : Bool) (data : Word) : BurstStep :=
  match b.phase with
  | .writing n =>
    if n + 1 < b.words.length then .more { b with phase := .writing (n + 1) }
    else if verify then .more { b with phase := .checking 0 false }
    else .ended false
  | .checking n differs =>
    let differs := differs || decide (data ≠ wordAt b.words n)
    if n + 1 < b.words.length then .more { b with phase := .checking (n + 1) differs }
    else .ended differs

end Sys2Proof.Machine
end

