-- ==== Sys2Proof/Machine/Regions.lean ====
section
/-! DEFINITION. The Region Map: reserved areas, class lookup, table checks, switch and undo (Chapters 2 and 5). -/

namespace Sys2Proof.Machine

/-! ### Areas and lookup -/

/-- An area by first and last word address, both included (00, Lines, slots and areas). -/
structure Area where
  first : Nat
  last  : Nat
  deriving DecidableEq, Repr

/-- The area holds the word. -/
def Area.holds (a : Area) (w : Nat) : Bool := decide (a.first ≤ w) && decide (w ≤ a.last)

/-- Two areas have a word in common. -/
def Area.meets (a b : Area) : Bool := decide (a.first ≤ b.last) && decide (b.first ≤ a.last)

/-- The anchor block (R21). -/
def State.anchorBlock (s : State) : Area := { first := s.top - 32, last := s.top - 1 }

/-- The journal window, if there is one (R15). -/
def State.window (s : State) : Option Area :=
  let d := s.engine.durable
  if d.slotCount = 0 then none
  else some { first := d.windowBase.toNat,
              last := d.windowBase.toNat + 16 * d.slotCount.toNat - 1 }

/-- The extent of a table (R25). -/
def Table.area (t : Table) : Area :=
  { first := t.base.toNat, last := t.base.toNat + 8 * t.descs.length - 1 }

/-- The pending area: the largest extent a table may have, cut at the last word of memory (R25). -/
def State.pendingArea (s : State) (base : Long) : Area :=
  { first := base.toNat, last := min (base.toNat + 127) (s.top - 1) }

/-- The area that the table state reserves (R25). -/
def State.stagedArea (s : State) : Option Area :=
  match s.region.state with
  | .none => none
  | .pending base => some (s.pendingArea base)
  | .ready t => some t.area

/-- The areas that give RESERVED in RUNNING and FROZEN (R24 steps 1 to 3). -/
def State.reservedAreas (s : State) : List Area :=
  s.anchorBlock :: (s.window.toList ++ (s.region.active.map Table.area).toList ++
    (s.region.retiring.map Table.area).toList ++ s.stagedArea.toList)

/-- The descriptor covers the word (R86). -/
def Descriptor.covers (d : Descriptor) (w : Nat) : Bool :=
  decide (d.first.toNat ≤ w) && decide (w ≤ d.last.toNat)

/-- The first descriptor of the active table that encloses the word (R87). -/
def State.coveringDesc (s : State) (w : Nat) : Option Descriptor :=
  match s.region.active with
  | none => none
  | some t => t.descs.find? (fun d => d.covers w)

/-- Class and region tag of an address (R24, R23). In UNFORMATTED nothing is reserved and every address is
DIRECT; in RECOVERING and FORMATTING no lookup is made, and the tag is 0 (R35). -/
def State.lookup (s : State) (a : Addr) : RegionClass × Word :=
  match s.gate.opState with
  | .unformatted => (.direct, 0)
  | .recovering => (.direct, 0)
  | .formatting => (.direct, 0)
  | .running | .frozen =>
    if s.reservedAreas.any (fun r => r.holds a.toNat) then (.reserved, 0)
    else match s.coveringDesc a.toNat with
      | some d => (d.cls, d.tag)
      | none => (.direct, 0)

/-- The lock set: the LOCK descriptors of the active table, in order (R97). -/
def State.lockSet (s : State) : List (Nat × Descriptor) :=
  match s.region.active with
  | none => []
  | some t => (t.descs.zipIdx.filter (fun p => p.1.isLock)).map (fun p => (p.2, p.1))

/-! ### Checking a table (R90, R91) -/

/-- Checks one descriptor's eight words, read from `addr`, against the one before it (R90). -/
def State.checkDescriptor (s : State) (addr : Nat) (prev : Option Descriptor) (ws : List Word) :
    TableOutcome ⊕ Descriptor :=
  let own : Area := { first := addr, last := addr + 7 }
  let kept : List Area := s.anchorBlock :: s.window.toList
  let range : Area := { first := (descFirst ws).toNat, last := (descLast ws).toNat }
  if kept.any own.meets then .inl .reserved
  else if checkOk ws = false then .inl .check
  else match classOfWord (wordAt ws 4) with
    | none => .inl .cls
    | some c =>
      if range.last < range.first ∨ s.top ≤ range.last then .inl .range
      else if (match prev with | some p => decide (range.first ≤ p.last.toNat) | none => false) then
        .inl .order
      else if c = .journaled ∧ (range.first % 8 ≠ 0 ∨ (range.last + 1) % 8 ≠ 0) then .inl .align
      else if kept.any range.meets then .inl .reserved
      else .inr { first := descFirst ws, last := descLast ws, cls := c, flags := wordAt ws 5,
                  tag := wordAt ws 6 }

/-- The lowest descriptor whose range meets the table's own extent (R91 item 1). -/
def ownExtentIndex (t : Table) : Option Nat :=
  t.descs.findIdx? (fun d => t.area.meets { first := d.first.toNat, last := d.last.toNat })

/-- A new table holds a locked descriptor unchanged (R91 item 2). -/
def lockKept (t : Table) (l : Descriptor) : Bool :=
  t.descs.any (fun d => decide (d.first = l.first) && decide (d.last = l.last) &&
    decide (d.cls = l.cls) && decide (d.tag = l.tag) && d.isLock)

/-- The checks over the whole table (R91): the error and its index, or `none` when the table passes. The
start-up load leaves the lock check out (R99). -/
def State.checkWhole (s : State) (t : Table) (locks : Bool) : Option (TableOutcome × Nat) :=
  match ownExtentIndex t with
  | some i => some (.reserved, i)
  | none =>
    if locks then
      match s.lockSet.find? (fun p => !lockKept t p.2) with
      | some p => some (.lock, p.1)
      | none => none
    else none

/-- Fills the table result (R92). -/
def setTableResult (outcome : TableOutcome) (origin : TableOrigin) (base : Long) (read index : Nat)
    (s : State) : State :=
  s.setRegion { s.region with
    result := { outcome := outcome, origin := origin, base := base, read := read, index := index,
                tick := s.time.tick } }

/-! ### Switch and undo (R93, R96) -/

/-- The table switch that a seal token made now carries, if a table is READY (R53, R93 item 1). -/
def State.readySwitch (s : State) : Option TableRef :=
  match s.region.state with
  | .ready t => some { base := t.base, count := BitVec.ofNat 16 t.descs.length }
  | .none => none
  | .pending _ => none

/-- The staged table becomes active and the active one retiring (R93). -/
def switchTable (s : State) : State :=
  match s.region.state with
  | .ready t =>
    s.setRegion { s.region with active := some t, retiring := s.region.active, state := .none }
  | .none => s
  | .pending _ => s

/-- Undoes the switch of a discarded seal token (R96). -/
def undoSwitch (s : State) : State :=
  s.setRegion { s.region with
    active := s.region.retiring
    retiring := none
    state := match s.region.state, s.region.active with
      | .none, some t => .ready t
      | st, _ => st }

end Sys2Proof.Machine
end

