-- ==== Sys2Proof/Machine/Watch.lean ====
section
/-! DEFINITION. The Watch Units: comparison of a cycle, hits and their records (Chapter 8). -/

namespace Sys2Proof.Machine

/-- Unit `n` of four. -/
def Four.get {α : Type} (x : Four α) : Fin 4 → α
  | 0 => x.u0
  | 1 => x.u1
  | 2 => x.u2
  | 3 => x.u3

/-- The four with unit `n` replaced. -/
def Four.put {α : Type} (x : Four α) (n : Fin 4) (a : α) : Four α :=
  match n with
  | 0 => { x with u0 := a }
  | 1 => { x with u1 := a }
  | 2 => { x with u2 := a }
  | 3 => { x with u3 := a }

/-- The settings of the four units as they stand. -/
def State.watchSettings (s : State) : Four WatchSettings :=
  { u0 := s.watch.u0.settings, u1 := s.watch.u1.settings, u2 := s.watch.u2.settings,
    u3 := s.watch.u3.settings }

/-- The data bits that a lane mask carries (R145). -/
def Lanes.bits : Lanes → Word
  | .upper => 0xFF00#16
  | .lower => 0x00FF#16
  | .both => 0xFFFF#16

/-- What a comparison made now sees of a cycle, which is what a first-hit capture records: the lane a
write does not carry as 00h, the intake group and the tick of the taking (R143, R148). -/
def State.observe (s : State) (addr : Addr) (dir : Direction) (lanes : Lanes) (data : Word)
    (cls : RegionClass) : WatchCapture :=
  { addr := addr, direction := dir, lanes := lanes, data := data &&& lanes.bits, cls := cls,
    group := s.intake.group, tick := s.time.tick }

/-- The ADDRESS field matches (R144). -/
def WatchSettings.addressMatches (w : WatchSettings) (c : WatchCapture) : Bool :=
  decide (w.low.toNat ≤ c.addr.toNat) && decide (c.addr.toNat ≤ w.high.toNat)

/-- The DATA field matches: marked bits in carried lanes equal the value, and some marked bit is carried
unless the mask is 0 (R145). -/
def WatchSettings.dataMatches (w : WatchSettings) (c : WatchCapture) : Bool :=
  decide (w.mask = 0 ∨ w.mask &&& c.lanes.bits ≠ 0) &&
  decide ((c.data ^^^ w.value) &&& w.mask &&& c.lanes.bits = 0)

/-- A unit hits a cycle: some field is enabled and every enabled field matches (R147). -/
def WatchSettings.hits (w : WatchSettings) (c : WatchCapture) : Bool :=
  decide (w.enables ≠ 0) &&
  (!w.enables.getLsbD 0 || w.addressMatches c) &&
  (!w.enables.getLsbD 1 || decide (w.direction = c.direction)) &&
  (!w.enables.getLsbD 2 || w.dataMatches c) &&
  (!w.enables.getLsbD 3 || decide (w.cls = c.cls))

/-- A hit on a unit: its count rises, an empty capture is filled (R147). -/
def WatchUnit.hit (u : WatchUnit) (c : WatchCapture) : WatchUnit :=
  { u with hits := satInc u.hits
           capture := match u.capture with
             | some old => some old
             | none => some c }

/-- One unit compares the cycle under the settings it held when the cycle arrived; a hit raises its event
(R143, R147, R151). -/
def compareUnit (n : Fin 4) (held : Four WatchSettings) (c : WatchCapture) (s : State) : State :=
  if (held.get n).hits c then
    raise (.watch n) (s.setWatch (s.watch.put n ((s.watch.get n).hit c)))
  else s

/-- All four units compare the cycle (R143). -/
def compareAll (held : Four WatchSettings) (c : WatchCapture) (s : State) : State :=
  compareUnit 3 held c (compareUnit 2 held c (compareUnit 1 held c (compareUnit 0 held c s)))

/-- Some unit with this action hits. -/
def anyHit (held : Four WatchSettings) (c : WatchCapture) (a : WatchAction) : Bool :=
  (held.u0.hits c && decide (held.u0.action = a)) || (held.u1.hits c && decide (held.u1.action = a)) ||
  (held.u2.hits c && decide (held.u2.action = a)) || (held.u3.hits c && decide (held.u3.action = a))

/-- The outcome of a comparison: the strongest action among the units that hit (R149). -/
def watchOutcome (held : Four WatchSettings) (c : WatchCapture) : Option WatchAction :=
  if anyHit held c .freeze then some .freeze
  else if anyHit held c .refuse then some .refuse
  else if anyHit held c .note then some .note
  else none

/-- The outcome refuses the cycle (R36). -/
def watchRefuses : Option WatchAction → Bool
  | some .freeze => true
  | some .refuse => true
  | some .note => false
  | none => false

end Sys2Proof.Machine
end

