-- ==== Sys2Proof/Machine/Ops.lean ====
section
/-! DEFINITION. The shared operations: memory accesses, ends of upstream cycles, intake, commit requests, discard orders, triggers and rollback orders. -/

namespace Sys2Proof.Machine

/-! ### Free values -/

/-- The next free choice among `n` (log 8). -/
def State.choose (s : State) (n : Nat) : Nat := Config.freeChoice s.free % n

/-- A free value has been drawn. -/
def drawFree (s : State) : State := s.setFree (s.free + 1)

/-! ### Memory through the port -/

/-- The word of memory that an access reaches: the lines above the address width are low (R21). -/
def State.wordOf (s : State) (a : Access) : Nat := a.addr % s.top

/-- The memory's answer to a read: the word it holds, or what the memory answers instead (log 6). -/
def State.readAnswer (s : State) (a : Access) (answer : Option Word) : Word :=
  match answer with
  | some w => w
  | none => s.mem.word (s.wordOf a)

/-- Memory after an access has completed: a read changes nothing, a write stores its lanes, or leaves
the whole word at what the memory holds instead (log 6). -/
def State.memAfter (s : State) (a : Access) (answer : Option Word) : Memory :=
  match a.write, answer with
  | none, _ => s.mem
  | some (w, lanes), none => s.mem.writeWord (s.wordOf a) w lanes
  | some _, some w => s.mem.writeWord (s.wordOf a) w .both

/-! ### The operating state and its lines -/

/-- The operating state moves; FRZ and READY follow it (R102, R122, R183). -/
def setOpState (o : OpState) (s : State) : State :=
  s.setGate { s.gate with opState := o, frz := decide (o = .frozen), ready := decide (o ≠ .recovering) }

/-! ### Ends of upstream cycles -/

/-- The current cycle ends: UWAIT is negated and the wait timer stops (R22, R34). -/
def endCycle (s : State) : State :=
  s.setUp { s.up with cycle := none, timer := none, uwait := false }

/-- A cycle is refused: UBERR, FFFFh for a read, the counters, the event and the capture (R35, R182). -/
def refuse (addr : Addr) (dir : Direction) (reason : Reason) (tag : Word) (s : State) : State :=
  let s := endCycle s
  let s := s.setUp { s.up with
    uberr := true
    readData := match dir with
      | .read => some 0xFFFF#16
      | .write => s.up.readData }
  let s := s.setEvents { s.events with
    refusal := some { addr := addr, direction := dir, reason := reason, tag := tag, tick := s.time.tick } }
  let s := count reason.counter s
  let s := match dir with
    | .read => count .refusedReads s
    | .write => s
  raise reason.event s

/-- A read ends with a word on the data lines (R27). -/
def answerRead (w : Word) (s : State) : State :=
  let s := endCycle s
  s.setUp { s.up with readData := some w }

/-- A new cycle arrives: the chip-select had been removed, and no earlier word is on the lines (log 21). -/
def openCycle (s : State) : State := s.setUp { s.up with uberr := false, readData := none }

/-- The wait timer starts with the limit in force (R34). -/
def State.freshTimer (s : State) : WaitTimer :=
  { elapsed := 0, limit := s.settings.waitLimit.toNat }

/-- The cycle becomes the current one and UWAIT is asserted (R22). -/
def holdCycle (c : Cycle) (timer : Option WaitTimer) (s : State) : State :=
  s.setUp { s.up with cycle := some c, timer := timer, uwait := true }

/-! ### The queue -/

/-- A free entry (R43). -/
def State.hasSpace (s : State) : Bool := decide (s.queue.entries.length < Config.queueSize)

/-- An entry is appended at the tail (R43). -/
def appendEntry (e : Entry) (s : State) : State :=
  s.setQueue { s.queue with entries := s.queue.entries ++ [e] }

/-- The entry is a JOURNALED WRITE. -/
def Entry.isJournaled : Entry → Bool
  | .write w => w.mark.isSome
  | .sealToken _ _ => false
  | .tableToken _ => false

/-- The entry is a SEAL token. -/
def Entry.isSeal : Entry → Bool
  | .write _ => false
  | .sealToken _ _ => true
  | .tableToken _ => false

/-- The SEAL token carries a table switch. -/
def Entry.carriesSwitch : Entry → Bool
  | .write _ => false
  | .sealToken _ sw => sw.isSome
  | .tableToken _ => false

/-- The number of SEAL tokens. -/
def sealCount (q : List Entry) : Nat := (q.filter Entry.isSeal).length

/-- The lane mask carries the upper lane. -/
def Lanes.hasUpper : Lanes → Bool
  | .upper => true
  | .lower => false
  | .both => true

/-- The lane mask carries the lower lane. -/
def Lanes.hasLower : Lanes → Bool
  | .upper => false
  | .lower => true
  | .both => true

/-- The newest queued byte for a word, going through the queue head first (R28): `lane` tells the lane. -/
def forwardByte (lane : Lanes → Bool) (byte : Word → Byte) (a : Addr) : List Entry → Byte → Byte
  | [], b => b
  | .write w :: q, b =>
    forwardByte lane byte a q (if w.addr = a ∧ lane w.lanes then byte w.data else b)
  | .sealToken _ _ :: q, b => forwardByte lane byte a q b
  | .tableToken _ :: q, b => forwardByte lane byte a q b

/-- The word a JOURNALED or DIRECT read returns: each lane from the newest queued write, else from
memory (R28). -/
def forward (q : List Entry) (a : Addr) (m : Word) : Word :=
  joinBytes (forwardByte Lanes.hasUpper hiByte a q (hiByte m))
    (forwardByte Lanes.hasLower loByte a q (loByte m))

/-! ### Intake: writes (3.3, 3.4) -/

/-- The line filter, the removed-line list, and whether the write is copy-first and noted, after the
lookup of a line (R48, R49, R50). -/
def filterLookup (filter removed : List Addr) (line : Addr) : List Addr × List Addr × Bool × Bool :=
  if line ∈ filter then (filter, removed, false, false)
  else
    let note := decide (line ∈ removed)
    let removed := removed.filter (fun l => decide (l ≠ line))
    if filter.length < Config.filterSize then (filter ++ [line], removed, true, note)
    else match filter with
      | [] => ([line], removed, true, note)
      | oldest :: rest => (rest ++ [line], removed ++ [oldest], true, note)

/-- The auto-commit count as the acceptance that sets the dirty flag starts it, by the interval in force
(R56 item 1). -/
def State.startedAuto (s : State) : AutoCommit :=
  if s.intake.interval = 0 then s.intake.auto
  else { count := 0, running := true, due := false }

/-- A JOURNALED write is accepted into the intake group (R46). -/
def acceptJournaled (addr : Addr) (data : Word) (lanes : Lanes) (s : State) : State :=
  let r := filterLookup s.intake.filter s.intake.removed (lineOf addr)
  let mark : JournalMark := { group := s.intake.group, copyFirst := r.2.2.1, note := r.2.2.2 }
  let auto := if s.intake.dirty then s.intake.auto else s.startedAuto
  appendEntry (.write { addr := addr, data := data, lanes := lanes, mark := some mark })
    (s.setIntake { s.intake with filter := r.1, removed := r.2.1, dirty := true, auto := auto })

/-- A write is accepted: the entry is appended and the cycle ends without UBERR (R32, R46). -/
def acceptWrite (addr : Addr) (data : Word) (lanes : Lanes) (cls : RegionClass) (s : State) : State :=
  endCycle (match cls with
    | .journaled => acceptJournaled addr data lanes s
    | .direct | .guarded | .closed | .reserved =>
      appendEntry (.write { addr := addr, data := data, lanes := lanes, mark := none }) s)

/-- The class refuses writes (R31 step 1). -/
def RegionClass.refusesWrites : RegionClass → Bool
  | .direct => false
  | .journaled => false
  | .guarded => true
  | .closed => true
  | .reserved => true

/-- Writes of this class fall inside the scope of a freeze (R31 step 3, R114). -/
def State.inScope (s : State) (c : RegionClass) : Bool :=
  decide (c = .journaled) || (decide (c = .direct) && decide (s.settings.scope = .allWrites))

/-- The closed gate covers writes of this class (R31 step 3, R114). -/
def State.gateCovers (s : State) (c : RegionClass) : Bool :=
  decide (s.gate.opState = .frozen) && s.inScope c

/-- The gate step refuses a write of this class (R31 step 3, R4). -/
def State.gateRefuses (s : State) (c : RegionClass) : Bool :=
  s.gateCovers c || (decide (c = .journaled) && decide (s.intake.group = Config.usedUpGroup))

/-- A write waiting for space that the closed gate now covers is refused (R33 item 2). -/
def refuseWaiting (s : State) : State :=
  match s.up.cycle with
  | none => s
  | some c =>
    if c.phase = .waitingWrite ∧ s.gateCovers c.cls then refuse c.addr c.direction .gate c.tag s else s

/-! ### The claim of a waiting write (2.5, 3.1) -/

/-- Cycles are refused with reason STATE (R23). -/
def State.refusesState (s : State) : Bool :=
  match s.gate.opState with
  | .recovering => true
  | .formatting => true
  | .unformatted => false
  | .running => false
  | .frozen => false

/-- A freed entry is free for a waiting write: no pending commit claims it first (R43). -/
def State.writeMayClaim (s : State) : Bool := s.hasSpace && !s.intake.pendingCommit

/-- A waiting write claims an entry: it is looked up and gate-checked again (R33 item 1). -/
def claimEntry (c : Cycle) (s : State) : State :=
  if s.refusesState then refuse c.addr .write .state 0 s
  else
    let look := s.lookup c.addr
    if look.1.refusesWrites then refuse c.addr .write .cls look.2 s
    else if s.gateRefuses look.1 then refuse c.addr .write .gate look.2 s
    else acceptWrite c.addr c.data c.lanes look.1 s

/-- A write that waits claims a free entry. It comes before any later request for the entry: a commit
request and LOAD TABLE find the claim made (R43, log 13), but for the action SEAL where the closing gate
refuses the write (R110). -/
def claimFirst (s : State) : State :=
  match s.up.cycle with
  | some c => if c.phase = .waitingWrite ∧ s.writeMayClaim then claimEntry c s else s
  | none => s

/-- A write waits that a closing of the gate refuses (R33 item 2). -/
def State.waitsInScope (s : State) : Bool :=
  match s.up.cycle with
  | some c => decide (c.phase = .waitingWrite) && s.inScope c.cls
  | none => false

/-! ### Commit requests (3.5) -/

/-- The greatest group number a token may carry now (R4). -/
def State.tokenLimit (s : State) : GroupNo :=
  match s.engine.work with
  | .rollingBack _ => if s.engine.count = 0 then Config.lastGroup else Config.lastGroup - 1
  | .idle | .draining _ | .recovering _ | .formatting _ => Config.lastGroup

/-- A table is READY. -/
def State.tableReady (s : State) : Bool :=
  match s.region.state with
  | .ready _ => true
  | .none => false
  | .pending _ => false

/-- Intake with the dirty flag, the filter and the removed-line list cleared and the auto-commit count
stopped at 0 (R53 steps 3 to 5, R59, R60). -/
def Intake.cleared (i : Intake) : Intake :=
  { i with dirty := false, filter := [], removed := [], auto := stoppedAuto }

/-- A seal token is made (R53, R93). -/
def makeToken (s : State) : State :=
  let s := switchTable (appendEntry (.sealToken s.intake.group s.readySwitch) s)
  s.setIntake { s.intake.cleared with group := s.intake.group + 1 }

/-- What R52 does with a commit request. -/
inductive CommitStep where
  | refusedBy (r : Result)
  | merged
  | nothing
  | held
  | token
  deriving DecidableEq, Repr

/-- Steps 3 and 4 of R52 stop a commit request. Cause EXHAUSTED stops every one (R5, R88), whatever number I
holds (log 39). -/
def State.commitBarred (s : State) : Bool :=
  s.gate.causes.anchor || s.gate.causes.exhausted || decide (s.tokenLimit < s.intake.group)

/-- The first step of R52 that applies. -/
def State.commitStep (s : State) : CommitStep :=
  if s.gate.opState = .recovering ∨ s.gate.opState = .formatting then .refusedBy .busy
  else if s.gate.opState = .unformatted then .refusedBy .unformatted
  else if s.commitBarred then .refusedBy .notPermitted
  else if s.intake.pendingCommit then .merged
  else if s.intake.dirty = false ∧ s.tableReady = false then .nothing
  else if s.hasSpace then .token
  else .held

/-- The result that COMMIT returns for a step of R52. -/
def CommitStep.result : CommitStep → Result
  | .refusedBy r => r
  | .merged => .done
  | .nothing => .empty
  | .held => .done
  | .token => .done

/-- Intake takes a commit request (R52). -/
def takeCommit (s : State) : State :=
  match s.commitStep with
  | .held => s.setIntake { s.intake with pendingCommit := true }
  | .token => makeToken s
  | .refusedBy _ => s
  | .merged => s
  | .nothing => s

/-! ### Discard orders (3.7) -/

/-- The entries a STOP order keeps, when no head is begun: every entry ahead of a later SEAL token, and
behind the last one every entry that is no JOURNALED WRITE (R59). -/
def stopKeep : List Entry → List Entry
  | [] => []
  | e :: q => if q.any Entry.isSeal || !e.isJournaled then e :: stopKeep q else stopKeep q

/-- The head has been begun (R44). -/
def State.headBegun (s : State) : Bool :=
  match s.engine.work with
  | .draining _ => true
  | .idle | .rollingBack _ | .recovering _ | .formatting _ => false

/-- The entries a STOP order keeps; a begun head stays in place (R59). -/
def State.stopKept (s : State) : List Entry :=
  match s.headBegun, s.queue.entries with
  | true, h :: q => h :: stopKeep q
  | _, q => stopKeep q

/-- The queue with `kept` left, the discard counts raised by what has gone (R61). -/
def Posted.discardTo (p : Posted) (kept : List Entry) : Posted :=
  { entries := kept
    discardedWrites := satAdd p.discardedWrites
      ((p.entries.filter Entry.isJournaled).length - (kept.filter Entry.isJournaled).length)
    discardedTokens := satAdd p.discardedTokens (sealCount p.entries - sealCount kept) }

/-- Whether a STOP order leaves the intake group abandoned, judged before Intake is cleared (R111). -/
def State.stopAbandons (s : State) : Bool :=
  s.intake.dirty || (decide (s.openGroup = s.intake.group) && decide (s.engine.count ≠ 0))

/-- The STOP discard order (R59, R111). -/
def stopOrder (s : State) : State :=
  let abandoned := if s.stopAbandons then some s.intake.group else s.engine.abandoned
  let s := s.setQueue (s.queue.discardTo s.stopKept)
  let s := s.setIntake { s.intake.cleared with pendingCommit := false }
  s.setEngine { s.engine with abandoned := abandoned }

/-- The journal-fault discard order: every JOURNALED WRITE and SEAL token goes, Intake sets I to D, and a
switch that a removed token carried is undone (R60). -/
def faultOrder (s : State) : State :=
  let switched := s.queue.entries.any Entry.carriesSwitch
  let s := s.setQueue (s.queue.discardTo
    (s.queue.entries.filter (fun e => !e.isJournaled && !e.isSeal)))
  let s := s.setIntake { s.intake.cleared with pendingCommit := false, group := s.openGroup }
  if switched then undoSwitch s else s

/-! ### Triggers (6.3, 6.4) -/

/-- The set holds the cause. -/
def CauseSet.has (c : CauseSet) : Cause → Bool
  | .pfail => c.pfail
  | .fault => c.fault
  | .watch => c.watch
  | .soft => c.soft
  | .jfull => c.jfull
  | .verify => c.verify
  | .table => c.table
  | .anchor => c.anchor
  | .exhausted => c.exhausted

/-- The set with the cause added. -/
def CauseSet.add (c : CauseSet) : Cause → CauseSet
  | .pfail => { c with pfail := true }
  | .fault => { c with fault := true }
  | .watch => { c with watch := true }
  | .soft => { c with soft := true }
  | .jfull => { c with jfull := true }
  | .verify => { c with verify := true }
  | .table => { c with table := true }
  | .anchor => { c with anchor := true }
  | .exhausted => { c with exhausted := true }

/-- A cause is added to the cause set. -/
def addCause (c : Cause) (s : State) : State := s.setGate { s.gate with causes := s.gate.causes.add c }

/-- The strength of an action (R108). -/
def Action.strength : Action → Nat
  | .none => 0
  | .sealGroup => 1
  | .stop => 2
  | .rollback => 3

/-- The escalation level is set. -/
def setLevel (a : Action) (s : State) : State := s.setGate { s.gate with level := a }

/-- The origin that a trigger's source gives a rollback order (R123). The three causes found by recovery
carry action NONE and order nothing. -/
def Cause.origin : Cause → Origin
  | .pfail => .pfail
  | .fault => .fault
  | .watch => .watch
  | .soft => .soft
  | .jfull => .jfull
  | .verify => .verify
  | .table | .anchor | .exhausted => .startUp

/-- The Store Engine is ROLLING_BACK. -/
def State.rollingBack (s : State) : Bool :=
  match s.engine.work with
  | .rollingBack _ => true
  | .idle | .draining _ | .recovering _ | .formatting _ => false

/-- A rollback order is placed, unless one is held or a rollback runs (R112, R123). -/
def placeOrder (o : Origin) (s : State) : State :=
  if s.gate.order.isSome || s.rollingBack then s else s.setGate { s.gate with order := some o }

/-- The gate closes: the state becomes FROZEN, FRZ is asserted, FROZE is raised, and a waiting write in the
scope is refused (R109, R33 item 2). -/
def closeGate (s : State) : State := refuseWaiting (raise .froze (setOpState .frozen s))

/-- What an action does once the gate is closed (R111, R112). -/
def actStopped (cause : Cause) (a : Action) (s : State) : State :=
  match a with
  | .none => s
  | .sealGroup => s
  | .stop => stopOrder s
  | .rollback => placeOrder cause.origin (stopOrder s)

/-- What an action does before the gate is closed: SEAL requests its commit while the gate is open. A waiting
write inside the scope claims no entry before it, and the closing refuses it (R110); any other waiting write
claims a free entry before the request (R43, log 13). -/
def actOpen (a : Action) (s : State) : State :=
  match a with
  | .sealGroup => takeCommit (if s.waitsInScope then s else claimFirst s)
  | .none | .stop | .rollback => s

/-- The Gate Controller takes a trigger, in RUNNING or FROZEN (R107, R109). -/
def trigger (cause : Cause) (a : Action) (s : State) : State :=
  match s.gate.opState with
  | .running => setLevel a (actStopped cause a (closeGate (actOpen a (addCause cause s))))
  | .frozen =>
    let s := addCause cause s
    if s.gate.level.strength < a.strength then setLevel a (actStopped cause a (actOpen a s)) else s
  | .recovering => s
  | .unformatted => s
  | .formatting => s

/-- A FREEZE outcome of the Watch Units is passed to the Gate Controller (R149). -/
def watchTrigger (o : Option WatchAction) (s : State) : State :=
  match o with
  | some .freeze => trigger .watch s.settings.watchAction s
  | some .refuse => s
  | some .note => s
  | none => s

/-! ### Input lines -/

/-- The state of an input line. -/
def State.input (s : State) : InputLine → InputState
  | .pfail => s.gate.pfail
  | .fault => s.gate.fault

/-- The state of an input line is replaced. -/
def setInput (l : InputLine) (x : InputState) (s : State) : State :=
  match l with
  | .pfail => s.setGate { s.gate with pfail := x }
  | .fault => s.setGate { s.gate with fault := x }

/-- The electrical level at which a line is active, `true` for HIGH (R104). -/
def State.activeLevel (s : State) : InputLine → Bool
  | .pfail => false
  | .fault => match s.settings.faultPolarity with
    | .highActive => true
    | .lowActive => false

/-- The freeze mask enables the line (R106). -/
def State.lineEnabled (s : State) : InputLine → Bool
  | .pfail => s.settings.pfailEnabled
  | .fault => s.settings.faultEnabled

/-- The cause that a line gives (R107). -/
def lineCause : InputLine → Cause
  | .pfail => .pfail
  | .fault => .fault

/-- The action setting of a line (R108). -/
def State.lineAction (s : State) : InputLine → Action
  | .pfail => s.settings.pfailAction
  | .fault => s.settings.faultAction

/-- A line's trigger (R106, R108). -/
def lineTrigger (l : InputLine) (s : State) : State := trigger (lineCause l) (s.lineAction l) s

/-- At the end of recovery or Format, an enabled line that is ACTIVE adds its cause (R116). -/
def examineLine (l : InputLine) (s : State) : State :=
  if s.lineEnabled l && (s.input l).active then addCause (lineCause l) s else s

/-- Some cause is set. -/
def CauseSet.any (c : CauseSet) : Bool :=
  c.pfail || c.fault || c.watch || c.soft || c.jfull || c.verify || c.table || c.anchor || c.exhausted

/-- The gate opens, or stays closed, at the end of recovery or of Format: the lines are examined, and the
state becomes FROZEN with FROZE raised if any cause is set, else RUNNING (R102, R116). -/
def openGate (s : State) : State :=
  let s := examineLine .fault (examineLine .pfail s)
  if s.gate.causes.any then raise .froze (setOpState .frozen s) else setOpState .running s

end Sys2Proof.Machine
end

