-- ==== Sys2Proof/Machine/Engine.lean ====
section
/-! DEFINITION. The Store Engine: what each drain, rollback, recovery and Format does as its accesses complete (Chapters 4, 7 and 9). -/

namespace Sys2Proof.Machine

/-! ### The engine's work -/

/-- The engine's work is replaced. -/
def setWork (w : Work) (s : State) : State := s.setEngine { s.engine with work := w }

/-- The engine is DRAINING at this point. -/
def setDrain (d : Drain) (s : State) : State := setWork (.draining d) s

/-- The head leaves the queue and the engine is IDLE (R44). -/
def finishDrain (s : State) : State :=
  setWork .idle (s.setQueue { s.queue with entries := s.queue.entries.tail })

/-- C reaches a closed group: k and the chain value return to 0 (R1, R2, R17). -/
def closeGroup (g : GroupNo) (s : State) : State :=
  s.setEngine { s.engine with closed := g, count := 0, chain := 0 }

/-- Freezes with cause EXHAUSTED when C is the last group (R5). -/
def checkExhausted (s : State) : State :=
  if s.engine.closed = Config.lastGroup then trigger .exhausted .none s else s

/-- Intake's group number is set. -/
def setGroup (g : GroupNo) (s : State) : State := s.setIntake { s.intake with group := g }

/-! ### The end of a live rollback (7.3) -/

/-- A JOURNALED read held during the rollback is offered to the Downstream Port (R30, R130). -/
def releaseHeld (s : State) : State :=
  match s.up.cycle with
  | none => s
  | some c =>
    if c.phase = .readHeld then
      s.setUp { s.up with cycle := some { c with phase := .reading }, timer := none }
    else s

/-- The restore report is filled, and takes the discard counts (R133, R61). -/
def fillReport (r : RestoreReport) (s : State) : State :=
  let full := { r with closed := s.engine.closed, discardedWrites := s.queue.discardedWrites,
                       discardedTokens := s.queue.discardedTokens, tick := s.time.tick }
  let s := s.setEvents { s.events with restore := full }
  s.setQueue { s.queue with discardedWrites := 0, discardedTokens := 0 }

/-- The end of every live rollback (R130), with the report of R133. -/
def endRollback (r : Rollback) (outcome : RestoreOutcome) (stop : Option Nat) (idx : Option Nat)
    (s : State) : State :=
  let s := s.setEngine { s.engine with abandoned := none }
  let s := fillReport
    { resetReport with origin := r.origin, outcome := outcome, examined := some r.group,
                       found := r.count, restored := r.restored,
                       stopSlot := stop.map (BitVec.ofNat 16), mismatches := r.mismatches,
                       anchorIndex := idx } s
  releaseHeld (setWork .idle s)

/-- One more on the group number of a SEAL token (R3, R42). The number of a token of the last group becomes
4,294,967,295 (log 39). -/
def Entry.renumbered : Entry → Entry
  | .write w => .write w
  | .sealToken g sw => .sealToken (g + 1) sw
  | .tableToken b => .tableToken b

/-- The VOIDED anchor of a live rollback has been written (R127), and the rollback ends (R130). Where R76 has
held a token of the last group, R3 adds one to I = 4,294,967,295 while R4 and R5 keep I there: the model
follows R3, and I becomes 0 (log 39). -/
def voidDone (r : Rollback) (stop : Option Nat) (mismatch : Bool) (s : State) : State :=
  let r := if mismatch then { r with mismatches := satInc r.mismatches } else r
  let s := closeGroup r.group s
  let s := setGroup (s.intake.group + 1) s
  let s := s.setQueue { s.queue with entries := s.queue.entries.map Entry.renumbered }
  let s := count .voidedGroups (raise .voided s)
  let s := checkExhausted s
  endRollback r (if stop.isSome then .torn else .voided) stop (some (groupIndex r.group)) s

/-! ### Restoring the records (7.2) -/

/-- The rollback is at this point. -/
def setRoll (r : Rollback) (p : RollPhase) (s : State) : State :=
  setWork (.rollingBack { r with phase := p }) s

/-- The rollback writes the VOIDED anchor of its group (R127). -/
def beginVoid (r : Rollback) (stop : Option Nat) (s : State) : State :=
  setRoll r (.void stop (newBurst (s.anchorAddr (groupIndex r.group))
    (s.voidedAnchor r.group r.count).words)) s

/-- The records are restored from the newest, or, with none, the rollback ends EMPTY (R124, R128). -/
def beginRestores (r : Rollback) (s : State) : State :=
  if r.count = 0 then endRollback r .empty none none s
  else setRoll r (.readSlot (r.count.toNat - 1) s.engine.chain []) s

/-- One access of a live rollback has completed with this data (R125 to R127, R82). -/
def advanceRollback (r : Rollback) (data : Word) (s : State) : State :=
  match r.phase with
  | .retract b =>
    match b.advance s.settings.verify data with
    | .more b' => setRoll r (.retract b') s
    | .ended differs =>
      beginRestores (if differs then { r with mismatches := satInc r.mismatches } else r) s
  | .readSlot j expect got =>
    let ws := got ++ [data]
    if ws.length < 16 then setRoll r (.readSlot j expect ws) s
    else if slotBelongs r.group j expect (s.anchorAddr 0) ws then
      setRoll r (.restore j (recordChain ws)
        (newBurst (recordLine ws).toNat (recordImage ws))) s
    else beginVoid r (some j) s
  | .restore j chain b =>
    match b.advance s.settings.verify data with
    | .more b' => setRoll r (.restore j chain b') s
    | .ended differs =>
      let r := { r with restored := satInc r.restored }
      let r := if differs then { r with mismatches := satInc r.mismatches } else r
      match j with
      | 0 => beginVoid r none s
      | j' + 1 => setRoll r (.readSlot j' chain []) s
  | .void stop b =>
    match b.advance s.settings.verify data with
    | .more b' => setRoll r (.void stop b') s
    | .ended differs => voidDone r stop differs s

/-- A live rollback of the open group, fixed as it stands (R124). -/
def State.newRollback (s : State) (o : Origin) (p : RollPhase) : Rollback :=
  { origin := o, group := s.openGroup, count := s.engine.count, restored := 0, mismatches := 0,
    phase := p }

/-- A held rollback order is withdrawn (R112). -/
def withdrawOrder (s : State) : State := s.setGate { s.gate with order := none }

/-- The queue allows a live rollback to begin: no JOURNALED WRITE and no SEAL token, apart from a token
that R76 holds at the head (R123). -/
def State.heldAtHead (s : State) : Bool :=
  match s.queue.entries with
  | .sealToken g _ :: _ => decide (s.engine.abandoned = some g)
  | .write _ :: _ => false
  | .tableToken _ :: _ => false
  | [] => false

/-- The start condition of a live rollback (R123). -/
def State.startCondition (s : State) : Bool :=
  let q := if s.heldAtHead then s.queue.entries.tail else s.queue.entries
  s.queue.entries.all (fun e => !e.isJournaled) && q.all (fun e => !e.isSeal)

/-! ### Journal faults (4.6) -/

/-- The rollback that a journal fault begins: the retraction of a failed anchor first, when it was an
anchor that failed (R82, R83). -/
def State.faultRollback (s : State) (cause : Cause) (retract : Bool) : Rollback :=
  s.newRollback cause.origin
    (if retract then
      .retract (newBurst (s.anchorAddr (groupIndex s.openGroup)) (List.replicate 16 0))
    else .readSlot (s.engine.count.toNat - 1) s.engine.chain [])

/-- Journal full or a verify failure is taken (R80, R81, R82): the discard order, the rollback of D, then
the freeze. A rollback with nothing to retract and no record ends at once with EMPTY (R128, log 20). -/
def journalFault (cause : Cause) (retract : Bool) (s : State) : State :=
  let s := faultOrder s
  let r := s.faultRollback cause retract
  let s := withdrawOrder (s.setEngine { s.engine with abandoned := some s.openGroup,
                                                      work := .rollingBack r })
  let s := trigger cause .rollback s
  if retract = false ∧ r.count = 0 then endRollback r .empty none none s else s

/-! ### Draining (4.3 to 4.5) -/

/-- The line of the begun head, when it is a WRITE. -/
def State.headLine (s : State) : Addr :=
  match s.queue.entries with
  | .write w :: _ => lineOf w.addr
  | .sealToken _ _ :: _ => 0
  | .tableToken _ :: _ => 0
  | [] => 0

/-- The table switch of the begun head, when it is a SEAL token that carries one. -/
def State.headSwitch (s : State) : Option TableRef :=
  match s.queue.entries with
  | .sealToken _ sw :: _ => sw
  | .write _ :: _ => none
  | .tableToken _ :: _ => none
  | [] => none

/-- The re-journal note of the begun head. -/
def State.headNote (s : State) : Bool :=
  match s.queue.entries with
  | .write w :: _ => match w.mark with
    | some m => m.note
    | none => false
  | .sealToken _ _ :: _ => false
  | .tableToken _ :: _ => false
  | [] => false

/-- The base that the begun head carries, when it is a TABLE token. -/
def State.headBase (s : State) : Long :=
  match s.queue.entries with
  | .tableToken b :: _ => b
  | .write _ :: _ => 0
  | .sealToken _ _ :: _ => 0
  | [] => 0

/-- The RECORD stage begins with the image of COPY: the journal is full, or slot k is written (R68). -/
def beginRecord (image : List Word) (s : State) : State :=
  if s.engine.count = s.engine.durable.slotCount then journalFault .jfull false s
  else setDrain (.record (newBurst (s.slotAddr s.engine.count.toNat)
    (recordWords s.openGroup s.engine.count (s.headLine.zeroExtend 32) image s.engine.chain))) s

/-- A record is counted (R70). -/
def countRecord (check : Word) (s : State) : State :=
  let s := s.setEngine { s.engine with count := s.engine.count + 1, chain := check,
                                       work := .draining .apply }
  if s.headNote then count .rejournaled s else s

/-- The durable configuration takes the table of a switch, the retiring area is released and cause TABLE
is cleared (R75 item 3, R95). -/
def settleSwitch (sw : TableRef) (s : State) : State :=
  let d := { s.engine.durable with tableBase := sw.base, tableCount := sw.count }
  let s := s.setEngine { s.engine with durable := d }
  let s := s.setRegion { s.region with retiring := none }
  s.setGate { s.gate with causes := { s.gate.causes with table := false } }

/-- A seal completes (R75). -/
def sealComplete (s : State) : State :=
  let sw := s.headSwitch
  let s := closeGroup s.openGroup s
  let s := match sw with
    | some t => settleSwitch t s
    | none => s
  let s := finishDrain s
  checkExhausted (count .sealedGroups (raise .groupSealed s))

/-- The read of a TABLE token ends: the table is accepted as READY or rejected (R91, R92). -/
def endTableRead (outcome : TableOutcome) (read index : Nat) (t : Table) (s : State) : State :=
  let s := s.setRegion { s.region with
    state := match outcome with
      | .accepted => .ready t
      | .notRun | .check | .cls | .range | .order | .align | .reserved | .noEnd | .lock => .none }
  let s := setTableResult outcome .load t.base read index s
  let s := raise (match outcome with
      | .accepted => .tableReady
      | .notRun | .check | .cls | .range | .order | .align | .reserved | .noEnd | .lock => .tableError) s
  finishDrain s

/-- A descriptor of a TABLE token's table has been read whole (R78, R90, R91). -/
def takeDescriptor (kept : List Descriptor) (ws : List Word) (s : State) : State :=
  let base := s.headBase
  let n := kept.length
  match s.checkDescriptor (base.toNat + 8 * n) kept.getLast? ws with
  | .inl e => endTableRead e (n + 1) n { base := base, descs := kept } s
  | .inr d =>
    let t : Table := { base := base, descs := kept ++ [d] }
    if d.isEnd then
      match s.checkWhole t true with
      | some (e, i) => endTableRead e (n + 1) i t s
      | none => endTableRead .accepted (n + 1) 0 t s
    else if n + 1 = Config.maxDescriptors then endTableRead .noEnd (n + 1) n t s
    else setDrain (.tableRead [] (kept ++ [d])) s

/-- One access of a drain has completed with this data (R67 to R78). -/
def advanceDrain (d : Drain) (data : Word) (s : State) : State :=
  match d with
  | .copy got =>
    let ws := got ++ [data]
    if ws.length < 8 then setDrain (.copy ws) s else beginRecord ws s
  | .record b =>
    match b.advance s.settings.verify data with
    | .more b' => setDrain (.record b') s
    | .ended true => journalFault .verify false s
    | .ended false => countRecord (recordCheck b.words) s
  | .apply => finishDrain s
  | .anchor b =>
    match b.advance s.settings.verify data with
    | .more b' => setDrain (.anchor b') s
    | .ended true => journalFault .verify true s
    | .ended false => sealComplete s
  | .tableRead got kept =>
    let ws := got ++ [data]
    if ws.length < 8 then setDrain (.tableRead ws kept) s else takeDescriptor kept ws s

/-- The first stage of an entry's drain (R65). -/
def State.firstStage (s : State) : Entry → Drain
  | .write w => match w.mark with
    | some m => if m.copyFirst then .copy [] else .apply
    | none => .apply
  | .sealToken _ sw => .anchor (newBurst (s.anchorAddr (groupIndex s.openGroup)) (s.sealedAnchor sw).words)
  | .tableToken _ => .tableRead [] []

/-! ### Start-up recovery (7.6) -/

/-- Recovery is at this point. -/
def setRec (r : Recovery) (p : RecPhase) (s : State) : State :=
  setWork (.recovering { r with phase := p }) s

/-- The outcome of a recovery that found a current anchor (R138). -/
def Recovery.outcome (r : Recovery) : RestoreOutcome :=
  if r.found = 0 then .clean
  else match r.stop with
    | some (_, .sequence) => .rolledBack
    | some (_, .torn) => .rolledBackTorn
    | some (_, .windowEnd) => .rolledBackEnd
    | none => .clean

/-- Exactly one anchor position was VALID (R133). -/
def tornFlag (c : Option (AnchorClass × AnchorClass)) : Bool :=
  match c with
  | none => false
  | some (a, b) => decide (a = .valid) != decide (b = .valid)

/-- Recovery ends (R138): the report, the operating state by `gate`, the engine IDLE, READY and RECOVERED. -/
def endRecovery (r : Recovery) (outcome : RestoreOutcome) (gate : State → State) (s : State) : State :=
  let s := fillReport
    { resetReport with origin := .startUp, outcome := outcome, examined := r.examined,
                       found := r.found, restored := r.restored, stopSlot := r.stop.map (·.1),
                       stopReason := r.stop.map (·.2), mismatches := r.mismatches,
                       anchorIndex := r.current, classes := r.classes,
                       tornAnchor := tornFlag r.classes } s
  let s := gate s
  let s := s.setEngine { s.engine with work := .idle, count := 0, chain := 0, abandoned := none }
  raise .recovered s

/-- The start-up table is rejected: cause TABLE, TABLE_ERROR, no active table (R99 item 5). -/
def rejectStartUpTable (r : Recovery) (e : TableOutcome) (read index : Nat) (s : State) : State :=
  let s := setTableResult e .startUp s.engine.durable.tableBase read index s
  let s := addCause .table (raise .tableError s)
  endRecovery r r.outcome openGate s

/-- The start-up table is accepted and becomes active (R99 item 4). -/
def acceptStartUpTable (r : Recovery) (t : Table) (s : State) : State :=
  let s := setTableResult .accepted .startUp t.base t.descs.length 0 s
  let s := s.setRegion { s.region with active := some t }
  endRecovery r r.outcome openGate s

/-- The load of the table of the durable configuration begins, or is settled without a read (R99). -/
def beginTableLoad (r : Recovery) (s : State) : State :=
  let d := s.engine.durable
  if d.tableCount = 0 then
    endRecovery r r.outcome openGate (setTableResult .accepted .startUp 0 0 0 s)
  else if d.tableBase.toNat % 8 ≠ 0 then rejectStartUpTable r .align 0 0 s
  else if s.top ≤ d.tableBase.toNat then rejectStartUpTable r .range 0 0 s
  else setRec r (.table [] []) s

/-- A descriptor of the start-up table has been read whole (R99 item 3). -/
def takeStartUpDescriptor (r : Recovery) (kept : List Descriptor) (ws : List Word) (s : State) : State :=
  let base := s.engine.durable.tableBase
  let n := kept.length
  match s.checkDescriptor (base.toNat + 8 * n) kept.getLast? ws with
  | .inl e => rejectStartUpTable r e (n + 1) n s
  | .inr d =>
    let t : Table := { base := base, descs := kept ++ [d] }
    if n + 1 < s.engine.durable.tableCount.toNat then
      if d.isEnd then rejectStartUpTable r .noEnd (n + 1) n s
      else setRec r (.table [] (kept ++ [d])) s
    else if d.isEnd = false then rejectStartUpTable r .noEnd (n + 1) n s
    else match s.checkWhole t false with
      | some (e, i) => rejectStartUpTable r e (n + 1) i s
      | none => acceptStartUpTable r t s

/-- The scan has ended: the records found are restored from the newest, or the table is loaded (R136, R137). -/
def endScan (r : Recovery) (found : Nat) (reason : StopReason) (s : State) : State :=
  let r := { r with found := BitVec.ofNat 16 found, stop := some (BitVec.ofNat 16 found, reason) }
  match found with
  | 0 => beginTableLoad r s
  | j + 1 => setRec r (.reread j []) s

/-- A slot has been scanned whole (R135). While the scan runs k holds the count of slots that belong. -/
def scanSlot (r : Recovery) (j : Nat) (chain : Word) (ws : List Word) (s : State) : State :=
  match classifySlot s.openGroup j chain (s.anchorAddr 0) ws with
  | .belongs =>
    let s := s.setEngine { s.engine with count := BitVec.ofNat 16 (j + 1) }
    if j + 1 < s.engine.durable.slotCount.toNat then setRec r (.scan (j + 1) (recordCheck ws) []) s
    else endScan r (j + 1) .windowEnd s
  | .torn => endScan r j .torn s
  | .empty => endScan r j .sequence s
  | .foreign => endScan r j .sequence s

/-- The next lower slot is read again, or the VOIDED anchor is written after slot 0 (R136, R137). -/
def nextRestore (r : Recovery) (j : Nat) (s : State) : State :=
  match j with
  | 0 => setRec r (.void (newBurst (s.anchorAddr (groupIndex s.openGroup))
      (s.voidedAnchor s.openGroup r.found).words)) s
  | j' + 1 => setRec r (.reread j' []) s

/-- A slot has been read again whole: it is restored if it still matches (R136). -/
def restoreSlot (r : Recovery) (j : Nat) (ws : List Word) (s : State) : State :=
  if slotStill s.openGroup j ws then
    setRec r (.restore j (newBurst (recordLine ws).toNat (recordImage ws))) s
  else nextRestore { r with mismatches := satInc r.mismatches } j s

/-- Cause EXHAUSTED is set during recovery when C is the last group (R5, R137). -/
def recoverExhausted (s : State) : State :=
  if s.engine.closed = Config.lastGroup then addCause .exhausted s else s

/-- The VOIDED anchor of recovery has been written (R137), and the table is loaded. -/
def recoveryVoided (r : Recovery) (s : State) : State :=
  let s := closeGroup s.openGroup s
  let s := setGroup s.openGroup s
  let s := recoverExhausted (count .voidedGroups (raise .voided s))
  beginTableLoad r s

/-- Both anchors have been read (R134). -/
def decideRecovery (r : Recovery) (ws0 ws1 : List Word) (s : State) : State :=
  let c0 := classifyAnchor s.straps.msize (s.anchorAddr 0) 0 ws0
  let c1 := classifyAnchor s.straps.msize (s.anchorAddr 0) 1 ws1
  let r := { r with classes := some (c0, c1) }
  match decideAnchors c0 c1 (anchorOf ws0) (anchorOf ws1) with
  | .unformatted => endRecovery r .unformatted (setOpState .unformatted) s
  | .damage => endRecovery r .anchorDamage openGate (addCause .anchor s)
  | .current idx a =>
    let s := s.setEngine { s.engine with closed := a.group, durable := a.durable }
    let s := recoverExhausted (setGroup s.openGroup s)
    let r := { r with current := some idx, examined := some s.openGroup }
    if a.group = Config.lastGroup then beginTableLoad r s
    else setRec r (.scan 0 0 []) s

/-- One access of recovery has completed with this data (R134 to R137, R99). VERIFY is OFF for the whole of
recovery. -/
def advanceRecovery (r : Recovery) (data : Word) (s : State) : State :=
  match r.phase with
  | .anchors got =>
    let ws := got ++ [data]
    if ws.length < 32 then setRec r (.anchors ws) s
    else decideRecovery r (ws.take 16) (ws.drop 16) s
  | .scan j chain got =>
    let ws := got ++ [data]
    if ws.length < 16 then setRec r (.scan j chain ws) s else scanSlot r j chain ws s
  | .reread j got =>
    let ws := got ++ [data]
    if ws.length < 16 then setRec r (.reread j ws) s else restoreSlot r j ws s
  | .restore j b =>
    match b.advance false data with
    | .more b' => setRec r (.restore j b') s
    | .ended _ => nextRestore { r with restored := satInc r.restored } j s
  | .void b =>
    match b.advance false data with
    | .more b' => setRec r (.void b') s
    | .ended _ => recoveryVoided r s
  | .table got kept =>
    let ws := got ++ [data]
    if ws.length < 8 then setRec r (.table ws kept) s else takeStartUpDescriptor r kept ws s

/-! ### Format (9.3, 9.4) -/

/-- Format is at this point. -/
def setFormat (f : Format) (p : FormatPhase) (s : State) : State :=
  setWork (.formatting { f with phase := p }) s

/-- The format count to be written (R10, R156 step 1). -/
def nextFormatCount (st : AnchorState) (ws0 ws1 : List Word) : Long :=
  match st with
  | .current _ a => a.formatCount + 1
  | .unformatted => 1
  | .damage =>
    match anchorIntact ws0, anchorIntact ws1 with
    | true, true =>
      (if (anchorOf ws0).formatCount < (anchorOf ws1).formatCount then (anchorOf ws1).formatCount
       else (anchorOf ws0).formatCount) + 1
    | true, false => (anchorOf ws0).formatCount + 1
    | false, true => (anchorOf ws1).formatCount + 1
    | false, false => 1

/-- The anchor position that Format clears first (R13, R156 step 2). -/
def firstCleared : AnchorState → Nat
  | .current 0 _ => 1
  | .current (_ + 1) _ => 0
  | .unformatted => 1
  | .damage => 1

/-- Format has read both anchors (R156 step 1). -/
def decideFormat (f : Format) (ws0 ws1 : List Word) (s : State) : State :=
  let c0 := classifyAnchor s.straps.msize (s.anchorAddr 0) 0 ws0
  let c1 := classifyAnchor s.straps.msize (s.anchorAddr 0) 1 ws1
  let st := decideAnchors c0 c1 (anchorOf ws0) (anchorOf ws1)
  setFormat { f with formatCount := nextFormatCount st ws0 ws1 } (.clearAnchors (firstCleared st) 0) s

/-- Format ends (R158). -/
def endFormat (f : Format) (s : State) : State :=
  let s := closeGroup 0 s
  let s := s.setEngine { s.engine with durable :=
    { windowBase := f.base, slotCount := f.slots, tableBase := 0, tableCount := 0,
      formatCount := f.formatCount } }
  let s := openGate (setGroup 1 s)
  raise .formatted (setWork .idle s)

/-- Format has failed and anchor 0 is zeroed (R159). -/
def failFormat (s : State) : State :=
  let s := closeGroup 0 s
  let s := s.setEngine { s.engine with durable := noDurable }
  setWork .idle (setOpState .unformatted (setGroup 1 s))

/-- One access of Format has completed with this data (R156). -/
def advanceFormat (f : Format) (data : Word) (s : State) : State :=
  match f.phase with
  | .anchors got =>
    let ws := got ++ [data]
    if ws.length < 32 then setFormat f (.anchors ws) s
    else decideFormat f (ws.take 16) (ws.drop 16) s
  | .clearAnchors first n =>
    if n + 1 < 32 then setFormat f (.clearAnchors first (n + 1)) s
    else setFormat f (.clearWindow 0) s
  | .clearWindow n =>
    if n + 1 < 16 * f.slots.toNat then setFormat f (.clearWindow (n + 1)) s
    else setFormat f (.anchor (newBurst (s.anchorAddr 0) (s.formattedAnchor f).words)) s
  | .anchor b =>
    match b.advance s.settings.verify data with
    | .more b' => setFormat f (.anchor b') s
    | .ended false => endFormat f s
    | .ended true => setFormat f (.retract (newBurst (s.anchorAddr 0) (List.replicate 16 0))) s
  | .retract b =>
    match b.advance false data with
    | .more b' => setFormat f (.retract b') s
    | .ended _ => failFormat s

/-! ### Claims on the port -/

/-- The anchor position that Format clears with its word `n` of 32 (R156 step 2). -/
def clearTarget (first n : Nat) : Nat := if n < 16 then first else 1 - first

/-- The next access of the work in hand, if there is one (R38, R39). -/
def State.engineAccess (s : State) : Option Access :=
  match s.engine.work with
  | .idle => none
  | .draining d =>
    match d with
    | .copy got => some { addr := s.headLine.toNat + got.length, write := none }
    | .record b => some b.access
    | .apply =>
      match s.queue.entries with
      | .write w :: _ => some { addr := w.addr.toNat, write := some (w.data, w.lanes) }
      | .sealToken _ _ :: _ => none
      | .tableToken _ :: _ => none
      | [] => none
    | .anchor b => some b.access
    | .tableRead got kept =>
      some { addr := s.headBase.toNat + 8 * kept.length + got.length, write := none }
  | .rollingBack r =>
    match r.phase with
    | .retract b => some b.access
    | .readSlot j _ got => some { addr := s.slotAddr j + got.length, write := none }
    | .restore _ _ b => some b.access
    | .void _ b => some b.access
  | .recovering r =>
    match r.phase with
    | .anchors got => some { addr := s.anchorAddr 0 + got.length, write := none }
    | .scan j _ got => some { addr := s.slotAddr j + got.length, write := none }
    | .reread j got => some { addr := s.slotAddr j + got.length, write := none }
    | .restore _ b => some b.access
    | .void b => some b.access
    | .table got kept =>
      some { addr := s.engine.durable.tableBase.toNat + 8 * kept.length + got.length, write := none }
  | .formatting f =>
    match f.phase with
    | .anchors got => some { addr := s.anchorAddr 0 + got.length, write := none }
    | .clearAnchors first n =>
      some { addr := s.anchorAddr (clearTarget first n) + n % 16, write := some (0, .both) }
    | .clearWindow n => some { addr := f.base.toNat + n, write := some (0, .both) }
    | .anchor b => some b.access
    | .retract b => some b.access

/-- An access of the Store Engine has completed with this data. -/
def advanceEngine (data : Word) (s : State) : State :=
  match s.engine.work with
  | .idle => s
  | .draining d => advanceDrain d data s
  | .rollingBack r => advanceRollback r data s
  | .recovering r => advanceRecovery r data s
  | .formatting f => advanceFormat f data s

end Sys2Proof.Machine
end

