-- ==== Sys2Proof/Machine/Operands.lean ====
section
/-! DEFINITION. The operand forms of the control link: setting ids and their values, report ids, and the bytes of responses (Chapter 10). -/

namespace Sys2Proof.Machine

/-! ### Flags in a byte -/

/-- One byte for a flag. -/
def flagByte (b : Bool) : Byte := if b then 1 else 0

/-- A byte of bits, bit 0 first. -/
def bitsByte (bs : List Bool) : Byte :=
  bs.foldr (fun b x => (x <<< 1) ||| flagByte b) 0

/-! ### Codes -/

/-- Result codes (R168). -/
def Result.code : Result → Byte
  | .none => 0x00#8
  | .done => 0x01#8
  | .busy => 0x02#8
  | .badReq => 0x03#8
  | .empty => 0x04#8
  | .notFrozen => 0x05#8
  | .openGroup => 0x06#8
  | .triggerActive => 0x07#8
  | .noTable => 0x08#8
  | .unformatted => 0x09#8
  | .notPermitted => 0x0A#8

/-- Operating state codes (R169). -/
def OpState.code : OpState → Byte
  | .recovering => 0
  | .unformatted => 1
  | .formatting => 2
  | .running => 3
  | .frozen => 4

/-- Action codes (R103). -/
def Action.code : Action → Byte
  | .none => 0
  | .sealGroup => 1
  | .stop => 2
  | .rollback => 3

/-- The action of a code (R108). -/
def actionOf (w : Nat) : Option Action :=
  match w with
  | 0 => some .none
  | 1 => some .sealGroup
  | 2 => some .stop
  | 3 => some .rollback
  | _ + 4 => none

/-- Activity codes (R169). -/
def Work.activityCode : Work → Byte
  | .idle => 0
  | .draining _ => 1
  | .rollingBack _ => 2
  | .recovering _ => 3
  | .formatting _ => 4

/-- Whether a run is at its read-back. -/
def Burst.reading (b : Burst) : Bool :=
  match b.phase with
  | .writing _ => false
  | .checking _ _ => true

/-- Stage codes (R169): COPY 1, RECORD 2, CHECK 3, APPLY 4, ANCHOR 5, ANCHOR_CHECK 6, TABLE_READ 7. -/
def Work.stageCode : Work → Byte
  | .draining (.copy _) => 1
  | .draining (.record b) => if b.reading then 3 else 2
  | .draining .apply => 4
  | .draining (.anchor b) => if b.reading then 6 else 5
  | .draining (.tableRead _ _) => 7
  | .idle => 0
  | .rollingBack _ => 0
  | .recovering _ => 0
  | .formatting _ => 0

/-- Class codes of a watch unit and its report (R141, R176). -/
def RegionClass.code : RegionClass → Byte
  | .direct => 0
  | .journaled => 1
  | .guarded => 2
  | .closed => 3
  | .reserved => 4

/-- The class of a CLASS setting's value (R142). -/
def classSetting (n : Nat) : Option RegionClass :=
  match n with
  | 0 => some .direct
  | 1 => some .journaled
  | 2 => some .guarded
  | 3 => some .closed
  | 4 => some .reserved
  | _ + 5 => none

/-- Direction codes (R141). -/
def Direction.code : Direction → Byte
  | .read => 0
  | .write => 1

/-- The direction of a DIRECTION setting's value (R142). -/
def directionSetting (n : Nat) : Option Direction :=
  match n with
  | 0 => some .read
  | 1 => some .write
  | _ + 2 => none

/-- Lane codes (R176). -/
def Lanes.code : Lanes → Byte
  | .upper => 1
  | .lower => 2
  | .both => 3

/-- Watch action codes (R141). -/
def WatchAction.code : WatchAction → Byte
  | .note => 0
  | .refuse => 1
  | .freeze => 2

/-- The watch action of an ACTION setting's value (R142). -/
def watchActionOf (n : Nat) : Option WatchAction :=
  match n with
  | 0 => some .note
  | 1 => some .refuse
  | 2 => some .freeze
  | _ + 3 => none

/-- Reason codes (R175). -/
def Reason.code : Reason → Byte
  | .cls => 0
  | .watch => 1
  | .gate => 2
  | .state => 3
  | .timeout => 4

/-- Origin codes (R174). -/
def Origin.code : Origin → Byte
  | .startUp => 0
  | .command => 1
  | .pfail => 2
  | .fault => 3
  | .watch => 4
  | .soft => 5
  | .jfull => 6
  | .verify => 7

/-- Outcome codes of the RESTORE report (R174). -/
def RestoreOutcome.code : RestoreOutcome → Byte
  | .notRun => 0
  | .unformatted => 1
  | .anchorDamage => 2
  | .clean => 3
  | .rolledBack => 4
  | .rolledBackTorn => 5
  | .rolledBackEnd => 6
  | .voided => 7
  | .torn => 8
  | .empty => 9

/-- Stop reason codes (R174). -/
def StopReason.code : StopReason → Byte
  | .sequence => 0
  | .torn => 1
  | .windowEnd => 2

/-- Anchor class codes (R174). -/
def AnchorClass.code : AnchorClass → Byte
  | .valid => 0
  | .damaged => 1
  | .empty => 2
  | .torn => 3

/-- Table outcome codes (R175). -/
def TableOutcome.code : TableOutcome → Byte
  | .notRun => 0
  | .accepted => 1
  | .check => 2
  | .cls => 3
  | .range => 4
  | .order => 5
  | .align => 6
  | .reserved => 7
  | .noEnd => 8
  | .lock => 9

/-- Table origin codes (R175). -/
def TableOrigin.code : TableOrigin → Byte
  | .load => 0
  | .startUp => 1

/-- Table state codes (R169). -/
def TableState.code : TableState → Byte
  | .none => 0
  | .pending _ => 1
  | .ready _ => 2

/-! ### Settings (R142, R170) -/

/-- The ten settings of a watch unit, in the order of their ids (R142). -/
inductive WatchField where
  | lowUpper
  | lowLower
  | highUpper
  | highLower
  | direction
  | value
  | mask
  | cls
  | enables
  | action
  deriving DecidableEq, Repr

/-- The settings of the part (R170). -/
inductive Setting where
  | clockRate
  | waitLimit
  | streakLimit
  | inputFilter
  | faultPolarity
  | freezeMask
  | pfailAction
  | faultAction
  | watchAction
  | scope
  | verify
  | autoInterval
  | attnMode
  | attnWidth
  | enables
  | watch (n : Fin 4) (f : WatchField)
  deriving DecidableEq, Repr

/-- Field `f` of a watch unit by number (R170). -/
def watchFieldOf (f : Nat) : Option WatchField :=
  match f with
  | 0 => some .lowUpper
  | 1 => some .lowLower
  | 2 => some .highUpper
  | 3 => some .highLower
  | 4 => some .direction
  | 5 => some .value
  | 6 => some .mask
  | 7 => some .cls
  | 8 => some .enables
  | 9 => some .action
  | _ + 10 => none

/-- Watch unit `n` by number. -/
def unitOf (n : Nat) : Option (Fin 4) :=
  match n with
  | 0 => some 0
  | 1 => some 1
  | 2 => some 2
  | 3 => some 3
  | _ + 4 => none

/-- The watch setting of an id from 20h on: unit and field by its two digits (R170). -/
def watchSettingOf (id : Nat) : Option Setting :=
  if id < 0x20 then none
  else match unitOf (id / 16 - 2), watchFieldOf (id % 16) with
    | some n, some f => some (.watch n f)
    | _, _ => none

/-- The setting of an id; `none` for an unknown id (R170). -/
def settingOf (id : Byte) : Option Setting :=
  match id.toNat with
  | 0x01 => some .clockRate
  | 0x02 => some .waitLimit
  | 0x03 => some .streakLimit
  | 0x04 => some .inputFilter
  | 0x05 => some .faultPolarity
  | 0x06 => some .freezeMask
  | 0x07 => some .pfailAction
  | 0x08 => some .faultAction
  | 0x09 => some .watchAction
  | 0x0A => some .scope
  | 0x0B => some .verify
  | 0x0C => some .autoInterval
  | 0x0D => some .attnMode
  | 0x0E => some .attnWidth
  | 0x0F => some .enables
  | n => watchSettingOf n

/-- The values a watch unit's field accepts (R142). -/
def WatchField.accepts (f : WatchField) (v : Word) : Bool :=
  match f with
  | .lowUpper => decide (v.toNat ≤ 0x1F)
  | .lowLower => true
  | .highUpper => decide (v.toNat ≤ 0x1F)
  | .highLower => true
  | .direction => decide (v.toNat ≤ 1)
  | .value => true
  | .mask => true
  | .cls => decide (v.toNat ≤ 4)
  | .enables => decide (v.toNat ≤ 15)
  | .action => decide (v.toNat ≤ 2)

/-- The values a setting accepts (R170, R171). -/
def Setting.accepts (x : Setting) (v : Word) : Bool :=
  match x with
  | .clockRate => decide (8 ≤ v.toNat) && decide (v.toNat ≤ 48)
  | .waitLimit => decide (1 ≤ v.toNat) && decide (v.toNat ≤ 1023)
  | .streakLimit => decide (1 ≤ v.toNat) && decide (v.toNat ≤ 15)
  | .inputFilter => decide (v.toNat ≤ 15)
  | .faultPolarity => decide (v.toNat ≤ 1)
  | .freezeMask => decide (v.toNat ≤ 3)
  | .pfailAction => decide (v.toNat ≤ 3)
  | .faultAction => decide (v.toNat ≤ 3)
  | .watchAction => decide (v.toNat ≤ 3)
  | .scope => decide (v.toNat ≤ 1)
  | .verify => decide (v.toNat ≤ 1)
  | .autoInterval => true
  | .attnMode => decide (v.toNat ≤ 1)
  | .attnWidth => decide (v = 1 ∨ v = 2 ∨ v = 4 ∨ v = 8)
  | .enables => decide (v.toNat ≤ 0x1FFF)
  | .watch _ f => f.accepts v

/-- The upper part of a 21-bit address, as its UPPER setting gives it (R142). -/
def addrUpper (a : Addr) : Word := (a.extractLsb' 16 5).zeroExtend 16

/-- The lower part of a 21-bit address, as its LOWER setting gives it (R142). -/
def addrLower (a : Addr) : Word := a.extractLsb' 0 16

/-- An address with its upper part set. -/
def withUpper (a : Addr) (v : Word) : Addr := (v.extractLsb' 0 5) ++ addrLower a

/-- An address with its lower part set. -/
def withLower (a : Addr) (v : Word) : Addr := a.extractLsb' 16 5 ++ v

/-- A code as the value of a setting. -/
def ofCode (b : Byte) : Word := b.zeroExtend 16

/-- The value of a watch unit's field as GET gives it (R142). -/
def WatchField.read (f : WatchField) (w : WatchSettings) : Word :=
  match f with
  | .lowUpper => addrUpper w.low
  | .lowLower => addrLower w.low
  | .highUpper => addrUpper w.high
  | .highLower => addrLower w.high
  | .direction => ofCode w.direction.code
  | .value => w.value
  | .mask => w.mask
  | .cls => ofCode w.cls.code
  | .enables => w.enables.zeroExtend 16
  | .action => ofCode w.action.code

/-- A watch unit's settings with one field set to an accepted value (R142). -/
def WatchField.store (f : WatchField) (v : Word) (w : WatchSettings) : WatchSettings :=
  match f with
  | .lowUpper => { w with low := withUpper w.low v }
  | .lowLower => { w with low := withLower w.low v }
  | .highUpper => { w with high := withUpper w.high v }
  | .highLower => { w with high := withLower w.high v }
  | .direction => { w with direction := (directionSetting v.toNat).getD w.direction }
  | .value => { w with value := v }
  | .mask => { w with mask := v }
  | .cls => { w with cls := (classSetting v.toNat).getD w.cls }
  | .enables => { w with enables := v.extractLsb' 0 4 }
  | .action => { w with action := (watchActionOf v.toNat).getD w.action }

/-- The value of a setting as GET gives it (R171). -/
def Setting.read (x : Setting) (s : State) : Word :=
  let c := s.settings
  match x with
  | .clockRate => c.clockRate
  | .waitLimit => c.waitLimit
  | .streakLimit => c.streakLimit
  | .inputFilter => c.inputFilter
  | .faultPolarity => match c.faultPolarity with
    | .highActive => 0
    | .lowActive => 1
  | .freezeMask => ofCode (bitsByte [c.pfailEnabled, c.faultEnabled])
  | .pfailAction => ofCode c.pfailAction.code
  | .faultAction => ofCode c.faultAction.code
  | .watchAction => ofCode c.watchAction.code
  | .scope => match c.scope with
    | .journaledOnly => 0
    | .allWrites => 1
  | .verify => ofCode (flagByte c.verify)
  | .autoInterval => c.autoInterval
  | .attnMode => match c.attnMode with
    | .level => 0
    | .pulse => 1
  | .attnWidth => c.attnWidth
  | .enables => c.enables.zeroExtend 16
  | .watch n f => f.read (s.watch.get n).settings

/-- The settings with one of them, not a watch unit's, set to an accepted value (R170). -/
def Setting.storeIn (x : Setting) (v : Word) (c : Settings) : Settings :=
  match x with
  | .clockRate => { c with clockRate := v }
  | .waitLimit => { c with waitLimit := v }
  | .streakLimit => { c with streakLimit := v }
  | .inputFilter => { c with inputFilter := v }
  | .faultPolarity => { c with faultPolarity := if v = 0 then .highActive else .lowActive }
  | .freezeMask => { c with pfailEnabled := v.getLsbD 0, faultEnabled := v.getLsbD 1 }
  | .pfailAction => { c with pfailAction := (actionOf v.toNat).getD c.pfailAction }
  | .faultAction => { c with faultAction := (actionOf v.toNat).getD c.faultAction }
  | .watchAction => { c with watchAction := (actionOf v.toNat).getD c.watchAction }
  | .scope => { c with scope := if v = 0 then .journaledOnly else .allWrites }
  | .verify => { c with verify := decide (v = 1) }
  | .autoInterval => { c with autoInterval := v }
  | .attnMode => { c with attnMode := if v = 0 then .level else .pulse }
  | .attnWidth => { c with attnWidth := v }
  | .enables => { c with enables := v.extractLsb' 0 13 }
  | .watch _ _ => c

/-- The state with one setting stored (R171). -/
def Setting.store (x : Setting) (v : Word) (s : State) : State :=
  match x with
  | .watch n f =>
    s.setWatch (s.watch.put n { s.watch.get n with settings := f.store v (s.watch.get n).settings })
  | .clockRate | .waitLimit | .streakLimit | .inputFilter | .faultPolarity | .freezeMask
  | .pfailAction | .faultAction | .watchAction | .scope | .verify | .autoInterval | .attnMode
  | .attnWidth | .enables => s.setSettings (x.storeIn v s.settings)

/-! ### What a SET does beside storing the value -/

/-- Triggers of the lines that a SET of the freeze mask has newly enabled while ACTIVE (R106). Where both
are, the manual gives no order: a free choice (log 8). -/
def maskTriggers (pfail fault : Bool) (s : State) : State :=
  match pfail, fault with
  | false, false => s
  | true, false => lineTrigger .pfail s
  | false, true => lineTrigger .fault s
  | true, true =>
    let first := s.choose 2
    let s := drawFree s
    if first = 0 then lineTrigger .fault (lineTrigger .pfail s)
    else lineTrigger .pfail (lineTrigger .fault s)

/-- The effect of a setting that has changed, given the state before the SET: FAULT POLARITY ends the run
(R105), FREEZE MASK may trigger (R106), FREEZE SCOPE may refuse a waiting write (R33), EVENT ENABLES and
ATTN MODE reach ATTN (R179, R180). Every other setting is read where it is used. -/
def settingEffect (x : Setting) (before s : State) : State :=
  match x with
  | .faultPolarity =>
    setInput .fault { s.gate.fault with active := false, run := none, qualified := false } s
  | .freezeMask =>
    maskTriggers (!before.settings.pfailEnabled && s.settings.pfailEnabled && s.gate.pfail.active)
      (!before.settings.faultEnabled && s.settings.faultEnabled && s.gate.fault.active) s
  | .scope => refuseWaiting s
  | .enables => s.setEvents (s.events.enablesSet s.settings before.settings.enables)
  | .attnMode => s.setEvents (s.events.modeChanged s.settings)
  | .clockRate | .waitLimit | .streakLimit | .inputFilter | .pfailAction | .faultAction | .watchAction
  | .verify | .autoInterval | .attnWidth | .watch _ _ => s

/-- A setting takes a value: the value already held changes nothing (R171). -/
def applySetting (x : Setting) (v : Word) (s : State) : State :=
  if x.read s = v then s else settingEffect x s (x.store v s)

end Sys2Proof.Machine
end

