-- ==== Sys2Proof/Machine/Reports.lean ====
section
/-! DEFINITION. The STATUS response and the reports of READ REPORT, byte by byte (R169, R173 to R176). -/

namespace Sys2Proof.Machine

/-- The cause set as 16 bits, bit 0 PFAIL to bit 8 EXHAUSTED (R169). -/
def CauseSet.bytes (c : CauseSet) : List Byte :=
  [bitsByte [c.exhausted],
   bitsByte [c.pfail, c.fault, c.watch, c.soft, c.jfull, c.verify, c.table, c.anchor]]

/-- A line's last sample is HIGH; before the first sample it reads 0 (R169). -/
def InputState.high (x : InputState) : Bool := x.last = some true

/-- The flags byte of STATUS (R169 byte 7). -/
def State.statusFlags (s : State) : Byte :=
  bitsByte [s.intake.pendingCommit, s.engine.abandoned.isSome, s.gate.order.isSome,
    s.gate.pfail.high, s.gate.fault.high, s.straps.maint]

/-- The 27 response bytes of STATUS (R169). -/
def State.statusBytes (s : State) : List Byte :=
  [s.gate.opState.code] ++ s.gate.causes.bytes ++
  [s.gate.level.code, s.engine.work.activityCode, s.engine.work.stageCode,
   BitVec.ofNat 8 s.queue.entries.length, s.statusFlags, s.region.state.code,
   s.straps.msize.zeroExtend 8] ++
  bytes4 s.intake.group ++ bytes4 s.engine.closed ++ bytes2 s.engine.count ++
  bytes4 (s.engine.abandoned.getD 0) ++ bytes2 (s.events.flags.zeroExtend 16) ++ [s.link.last.code]

/-- The anchor classes byte: classes and the torn-anchor flag (R174 byte 21). -/
def RestoreReport.classByte (r : RestoreReport) : Byte :=
  (match r.classes with
   | none => 0
   | some (a, b) => a.code ||| (b.code <<< 2)) ||| (flagByte r.tornAnchor <<< 4)

/-- The 28 bytes of the RESTORE report (R174). -/
def RestoreReport.bytes (r : RestoreReport) : List Byte :=
  [r.origin.code, r.outcome.code,
   bitsByte [r.examined.isSome, r.stopSlot.isSome, r.anchorIndex.isSome, r.classes.isSome,
     r.stopReason.isSome]] ++
  bytes4 (r.examined.getD 0) ++ bytes4 r.closed ++ bytes2 r.found ++ bytes2 r.restored ++
  bytes2 (r.stopSlot.getD 0) ++ [(r.stopReason.map StopReason.code).getD 0] ++
  bytes2 r.mismatches ++ [BitVec.ofNat 8 (r.anchorIndex.getD 0), r.classByte] ++
  bytes2 r.discardedWrites ++ bytes2 r.discardedTokens ++ bytes2 r.tick

/-- The three base bytes of the TABLE report. A base that does not fit in them, which only an anchor can
name, has no value in the manual: a free value (log 18). -/
def reportBase (base : Long) : BitVec 24 :=
  if base.toNat < 2 ^ 24 then base.extractLsb' 0 24 else Config.wideBase base

/-- The 9 bytes of the TABLE report (R175). -/
def TableResult.bytes (r : TableResult) : List Byte :=
  [r.outcome.code, r.origin.code] ++ bytes3 (reportBase r.base) ++
  [BitVec.ofNat 8 r.read, BitVec.ofNat 8 r.index] ++ bytes2 r.tick

/-- The three bytes of a word address. -/
def addrBytes (a : Addr) : List Byte := bytes3 (a.zeroExtend 24)

/-- The 10 bytes of the REFUSAL report (R175). -/
def refusalBytes (r : Option RefusalCapture) : List Byte :=
  match r with
  | none => List.replicate 10 0
  | some c => [1] ++ addrBytes c.addr ++ [c.direction.code, c.reason.code] ++ bytes2 c.tag ++ bytes2 c.tick

/-- The 17 bytes of a WATCHn report (R176). -/
def WatchUnit.bytes (u : WatchUnit) : List Byte :=
  [flagByte u.capture.isSome] ++ bytes2 u.hits ++
  (match u.capture with
   | none => List.replicate 14 0
   | some c => addrBytes c.addr ++ [c.direction.code, c.lanes.code] ++ bytes2 c.data ++ [c.cls.code] ++
       bytes4 c.group ++ bytes2 c.tick)

/-- The 16 bytes of the COUNTERS report (R176). -/
def Counters.bytes (c : Counters) : List Byte :=
  bytes2 c.classRefusals ++ bytes2 c.gateRefusals ++ bytes2 c.watchRefusals ++ bytes2 c.waitTimeouts ++
  bytes2 c.refusedReads ++ bytes2 c.rejournaled ++ bytes2 c.sealedGroups ++ bytes2 c.voidedGroups

/-- The bytes of a report by its id; `none` for an unknown id (R173). -/
def State.reportBytes (s : State) (id : Byte) : Option (List Byte) :=
  match id.toNat with
  | 0x01 => some s.events.restore.bytes
  | 0x02 => some s.region.result.bytes
  | 0x03 => some (refusalBytes s.events.refusal)
  | 0x04 => some s.watch.u0.bytes
  | 0x05 => some s.watch.u1.bytes
  | 0x06 => some s.watch.u2.bytes
  | 0x07 => some s.watch.u3.bytes
  | 0x08 => some s.events.counters.bytes
  | _ => none

end Sys2Proof.Machine
end

