-- ==== Sys2Proof/WellFormed.lean ====
section
/-! DEFINITION. Which commands are well formed: the operands that a row of the table cannot carry. -/

namespace Sys2Proof

/-- The setting ids that have a SET row of their own in the table. -/
def ownRowIds : List Byte := [0x01#8, 0x05#8, 0x06#8, 0x0A#8, 0x0C#8, 0x0D#8, 0x0F#8]

/-- A command is well formed when its operands can stand in its row: UNKNOWN_COMMAND carries no known
code, and the plain SET row carries no id whose SET has a row of its own (log 27). -/
def Instr.wellFormed : Instr → Bool
  | .unknownCommand code => !knownCode code
  | .set id _ => !ownRowIds.contains id
  | .reset _ _ | .upstreamRead _ | .upstreamWrite _ _ _ _ | .waitingWriteClaim | .pendingCommitClaim
  | .waitLimitExpiry | .arbiterGrant | .accessComplete _ | .takeHead | .liveRollbackBegin | .sealEdge
  | .lineEvent _ | .lineRelease _ | .tick | .autoCommitExpiry | .attnPulseEnd | .frameEnd _ | .status
  | .commit | .loadTable _ | .thaw | .rollback | .format _ _ | .setClockRate _ | .setFreezeMask _
  | .setFaultPolarity _ | .setFreezeScope _ | .setAutoCommitInterval _ | .setEventEnables _
  | .setAttnMode _ | .get _ | .clearEvents _ | .readReport _ | .clearWatch _ | .clearCounters
  | .freeze _ | .chipSelectRemoved | .frameStart | .lineRunBegin _ | .sealNegated
  | .firstSample _ _ _ => true

end Sys2Proof
end

