-- ==== Sys2Proof/Machine/Link.lean ====
section
/-! DEFINITION. Control Link frames: the commands that begin and end a frame, and the taking of a command in it (10.1). -/

namespace Sys2Proof.Machine

/-- A frame is in progress and its command has not been taken yet (R164). -/
def State.awaitsCommand (s : State) : Bool :=
  match s.link.frame with
  | some f => f.taken.isNone
  | none => false

/-- What a command gives in its taking: result, response and the state it leaves. -/
structure Answer where
  result   : Result
  response : List Byte
  state    : State
  deriving DecidableEq, Repr

/-- A command without response data. -/
def plain (r : Result) (s : State) : Answer := { result := r, response := [], state := s }

/-- The command is taken in the frame in progress: its owner carries it out, and result and response are
captured (R164). Bytes outside a frame are ignored (R163), and so are bytes after the command of the frame
(R165) (log 16). -/
def takeCommand (params : Nat) (owner : State → Answer) (s : State) : State :=
  if s.awaitsCommand then
    let a := owner s
    a.state.setLink { a.state.link with
      frame := some { taken := some { params := params, result := a.result, response := a.response } } }
  else s

/-- A command that RECOVERING and FORMATTING answer with BUSY without passing it on (R167). -/
def unlessBusy (owner : State → Answer) (s : State) : Answer :=
  match s.gate.opState with
  | .recovering => plain .busy s
  | .formatting => plain .busy s
  | .unformatted | .running | .frozen => owner s

/-- The byte on SDO at position `i` of a frame, counted from 0 for the command byte: 00h up to the
turnaround byte, then the result, the response, and FFh for every surplus byte (R164, R165). -/
def Taken.sdoByte (t : Taken) (i : Nat) : Byte :=
  if i < t.params + 2 then 0
  else if i = t.params + 2 then t.result.code
  else (t.response[i - (t.params + 3)]?).getD 0xFF#8

/-- The byte that SDO gives at position `i` of the frame in progress, sent most significant bit first; `none`
is high impedance, outside a frame and after a reset. Before a command has been taken every byte is 00h
(R163, R164, R166). -/
def State.sdo (s : State) (i : Nat) : Option Byte :=
  match s.link.frame with
  | none => none
  | some f => match f.taken with
    | none => some 0
    | some t => some (t.sdoByte i)

/-- FRAME_START (R163, R166): CSN falls. A frame begins provided the link has seen CSN high since the last
reset. -/
def execFrameStart (s : State) : Host.Outcome State Fault Refusal :=
  .next (s.setLink { s.link with
    csnLow := true
    frame := if s.link.csnLow = false ∧ s.link.seenHigh then some { taken := none } else s.link.frame })

/-- The last frame result after CSN rises: the result of the command taken, BADREQ for a frame cut before
its command was taken, and no change when no byte was completed (R163, R165, R166; log 15). -/
def Link.resultAfter (l : Link) (bytes : Nat) : Result :=
  match l.frame with
  | none => l.last
  | some f => match f.taken with
    | some t => t.result
    | none => if bytes = 0 then l.last else .badReq

/-- FRAME_END (R166): CSN rises after `bytes` whole bytes. -/
def execFrameEnd (bytes : Nat) (s : State) : Host.Outcome State Fault Refusal :=
  .next (s.setLink { csnLow := false, seenHigh := true, frame := none,
                     last := s.link.resultAfter bytes })

/-- UNKNOWN_COMMAND (R165): a byte that is no known code is taken at once with BADREQ. A known code is no
unknown command and nothing is taken (log 28). -/
def execUnknownCommand (code : Byte) (s : State) : Host.Outcome State Fault Refusal :=
  .next (if knownCode code then s else takeCommand 0 (plain .badReq) s)

end Sys2Proof.Machine
end

