-- ==== Sys2Proof/Machine/Commands.lean ====
section
/-! DEFINITION. The reset and the commands of the control link that are not SETs (R37, Chapters 3, 5, 6, 9, 10). -/

namespace Sys2Proof.Machine

/-! ### Reset -/

/-- Memory as a reset leaves it: a word write under way leaves its word unknown (R37, log 7). -/
def State.memCut (s : State) : Memory :=
  match s.port.access with
  | some (_, a) => match a.write with
    | some _ => s.mem.writeWord (s.wordOf a) (Config.cutWord s.free) .both
    | none => s.mem
  | none => s.mem

/-- RESET (R37, R134): every piece of on-chip state returns to its reset value, the straps are sampled and
recovery begins. Memory and the controller's CSN level stay (log 10). -/
def execReset (msize : BitVec 2) (maint : Bool) (s : State) : Host.Outcome State Fault Refusal :=
  .next (State.afterReset { msize := msize, maint := maint } s.link.csnLow s.memCut (s.free + 1) s.pending)

/-! ### STATUS, GET, READ REPORT -/

/-- STATUS (R169). -/
def execStatus (s : State) : Host.Outcome State Fault Refusal :=
  .next (takeCommand 0 (fun s => { result := .done, response := s.statusBytes, state := s }) s)

/-- GET as its owner answers it (R171). -/
def answerGet (id : Byte) (s : State) : Answer :=
  match settingOf id with
  | some x => { result := .done, response := bytes2 (x.read s), state := s }
  | none => { result := .badReq, response := [0, 0], state := s }

/-- GET (R171). -/
def execGet (id : Byte) (s : State) : Host.Outcome State Fault Refusal :=
  .next (takeCommand 1 (answerGet id) s)

/-- READ REPORT as its owner answers it (R173). -/
def answerReport (id : Byte) (s : State) : Answer :=
  match s.reportBytes id with
  | some bs => { result := .done, response := bs, state := s }
  | none => plain .badReq s

/-- READ_REPORT (R173). -/
def execReadReport (id : Byte) (s : State) : Host.Outcome State Fault Refusal :=
  .next (takeCommand 1 (answerReport id) s)

/-! ### COMMIT and LOAD TABLE -/

/-- The answer of an owner whose request comes behind the claim of a waiting write (R43, log 13). A result
other than DONE changes no state, so the claim is then still to be made (R167). -/
def behindClaim (owner : State → Answer) (s : State) : Answer :=
  let a := owner (claimFirst s)
  if a.result = .done then a else { a with state := s }

/-- COMMIT as Intake answers it (R52). -/
def answerCommit (s : State) : Answer := plain s.commitStep.result (takeCommit s)

/-- COMMIT (R52). -/
def execCommit (s : State) : Host.Outcome State Fault Refusal :=
  .next (takeCommand 0 (unlessBusy (behindClaim answerCommit)) s)

/-- The base of LOAD TABLE is refused (R88 step 4). -/
def State.baseRefused (s : State) (base : Long) : Bool :=
  decide (base.toNat % 8 ≠ 0) || decide (s.anchorAddr 0 ≤ base.toNat) ||
  s.window.any (fun w => w.holds base.toNat)

/-- LOAD TABLE as the Region Map answers it (R88, R58, R89). -/
def answerLoadTable (base : BitVec 24) (s : State) : Answer :=
  let base : Long := base.zeroExtend 32
  if s.gate.opState = .unformatted then plain .unformatted s
  else if s.gate.causes.anchor then plain .notPermitted s
  else if s.baseRefused base then plain .badReq s
  else match s.region.state with
    | .pending _ => plain .busy s
    | .none | .ready _ =>
      if s.hasSpace ∧ s.intake.pendingCommit = false then
        plain .done (appendEntry (.tableToken base)
          (s.setRegion { s.region with state := .pending base }))
      else plain .busy s

/-- LOAD_TABLE (R88). -/
def execLoadTable (base : BitVec 24) (s : State) : Host.Outcome State Fault Refusal :=
  .next (takeCommand 3 (unlessBusy (behindClaim (answerLoadTable base))) s)

/-! ### THAW, ROLLBACK, FREEZE -/

/-- A latched line cause's line is at its active level by its last sample (R120 row 6). During a short
bounce after a release the row's condition and the sentence under the table disagree; the row decides, and
the line holds (log 37). -/
def State.lineHolds (s : State) (l : InputLine) : Bool :=
  s.gate.causes.has (lineCause l) && decide ((s.input l).last = some (s.activeLevel l))

/-- The result of THAW (R120 rows 2 to 8). -/
def State.thawResult (s : State) : Result :=
  if s.gate.opState ≠ .frozen then .notFrozen
  else if s.gate.order.isSome || s.rollingBack then .busy
  else if s.gate.causes.anchor || s.gate.causes.exhausted then .notPermitted
  else if s.gate.causes.table then .noTable
  else if s.lineHolds .pfail || s.lineHolds .fault then .triggerActive
  else if s.engine.abandoned.isSome then .openGroup
  else .done

/-- THAW as the Gate Controller answers it (R120, R121). -/
def answerThaw (s : State) : Answer :=
  if s.thawResult = .done then
    plain .done (setOpState .running (s.setGate { s.gate with causes := noCauses, level := .none }))
  else plain s.thawResult s

/-- THAW (R120). -/
def execThaw (s : State) : Host.Outcome State Fault Refusal :=
  .next (takeCommand 0 (unlessBusy answerThaw) s)

/-- ROLLBACK as the Gate Controller answers it (R119). -/
def answerRollback (s : State) : Answer :=
  if s.gate.opState ≠ .frozen then plain .notFrozen s
  else if s.gate.order.isSome || s.rollingBack then plain .busy s
  else plain .done (setLevel .rollback (placeOrder .command (stopOrder s)))

/-- ROLLBACK (R119). -/
def execRollback (s : State) : Host.Outcome State Fault Refusal :=
  .next (takeCommand 0 (unlessBusy answerRollback) s)

/-- FREEZE as the Gate Controller answers it (R118). -/
def answerFreeze (action : Byte) (s : State) : Answer :=
  if s.gate.opState = .unformatted then plain .busy s
  else match actionOf action.toNat with
    | none => plain .badReq s
    | some a => plain .done (trigger .soft a s)

/-- FREEZE (R118). -/
def execFreeze (action : Byte) (s : State) : Host.Outcome State Fault Refusal :=
  .next (takeCommand 1 (unlessBusy (answerFreeze action)) s)

/-! ### FORMAT -/

/-- FORMAT is permitted (R153). -/
def State.formatPermitted (s : State) : Bool :=
  match s.gate.opState with
  | .unformatted => true
  | .frozen => s.gate.causes.anchor || s.straps.maint
  | .running => s.straps.maint
  | .recovering => false
  | .formatting => false

/-- A write waits for queue space. -/
def State.writeWaits (s : State) : Bool :=
  match s.up.cycle with
  | some c => decide (c.phase = .waitingWrite)
  | none => false

/-- FORMAT finds work in hand (R154 row 4). With a claim on a free entry still to be taken the queue is as
good as not empty (R43, log 13). -/
def State.formatBusy (s : State) : Bool :=
  !s.queue.entries.isEmpty || decide (s.engine.work ≠ .idle) || s.gate.order.isSome ||
  s.intake.pendingCommit || s.writeWaits

/-- Format begins (R155). -/
def beginFormat (base : Long) (slots : Word) (s : State) : State :=
  let s := setOpState .formatting
    (s.setGate { s.gate with causes := noCauses, level := .none })
  let s := s.setEngine { s.engine with
    work := .formatting { base := base, slots := slots, formatCount := 0, phase := .anchors [] }
    abandoned := none }
  let s := s.setRegion { s.region with active := none, retiring := none, state := .none }
  s.setIntake s.intake.cleared

/-- FORMAT as the Store Engine answers it (R154). -/
def answerFormat (base : BitVec 24) (slots : Word) (s : State) : Answer :=
  let base : Long := base.zeroExtend 32
  if s.formatPermitted = false then plain .notPermitted s
  else if windowIllegal base slots (s.anchorAddr 0) then plain .badReq s
  else if s.formatBusy then plain .busy s
  else plain .done (beginFormat base slots s)

/-- FORMAT (R154). -/
def execFormat (base : BitVec 24) (slots : Word) (s : State) : Host.Outcome State Fault Refusal :=
  .next (takeCommand 5 (unlessBusy (answerFormat base slots)) s)

/-! ### Clears -/

/-- CLEAR_EVENTS (R172, R178). Bits 13 to 15 of the mask are ignored. -/
def execClearEvents (mask : Word) (s : State) : Host.Outcome State Fault Refusal :=
  .next (takeCommand 2 (unlessBusy (fun s =>
    plain .done (s.setEvents (s.events.clear s.settings (mask.extractLsb' 0 13))))) s)

/-- CLEAR COUNTERS (R172, R181). -/
def execClearCounters (s : State) : Host.Outcome State Fault Refusal :=
  .next (takeCommand 0 (unlessBusy (fun s =>
    plain .done (s.setEvents { s.events with counters := zeroCounters }))) s)

/-- CLEAR WATCH as the Watch Units answer it (R150). -/
def answerClearWatch (unit : Byte) (s : State) : Answer :=
  match unitOf unit.toNat with
  | none => plain .badReq s
  | some n => plain .done (s.setWatch (s.watch.put n { s.watch.get n with hits := 0, capture := none }))

/-- CLEAR_WATCH (R150). -/
def execClearWatch (unit : Byte) (s : State) : Host.Outcome State Fault Refusal :=
  .next (takeCommand 1 (unlessBusy (answerClearWatch unit)) s)

end Sys2Proof.Machine
end

