-- ==== Sys2Proof/Machine/Cycles.lean ====
section
/-! DEFINITION. Upstream commands: read and write cycles, the claims on freed queue entries, the wait limit and the end of chip-select (Chapters 2 and 3). -/

namespace Sys2Proof.Machine

/-- The lane mask of two lane strobes; `none` for neither (R22). -/
def lanesOf (upper lower : Bool) : Option Lanes :=
  match upper, lower with
  | true, true => some .both
  | true, false => some .upper
  | false, true => some .lower
  | false, false => none

/-- A read cycle arrives (R27, R30). -/
def takeRead (a : Addr) (s : State) : State :=
  let s := openCycle s
  let a := s.cycleAddr a
  if s.refusesState then refuse a .read .state 0 s
  else
    let look := s.lookup a
    if look.1 = .closed then
      let seen := s.observe a .read .both 0xFFFF#16 .closed
      let held := s.watchSettings
      watchTrigger (watchOutcome held seen)
        (refuse a .read .cls look.2 (compareAll held seen s))
    else
      let held := decide (look.1 = .journaled) && s.rollingBack
      holdCycle { addr := a, direction := .read, lanes := .both, data := 0, cls := look.1,
                  tag := look.2, watch := s.watchSettings,
                  phase := if held then .readHeld else .reading }
        (if held then some s.freshTimer else none) s

/-- UPSTREAM_READ (R27). -/
def execUpstreamRead (a : Addr) (s : State) : Host.Outcome State Fault Refusal :=
  if s.up.cycle.isSome then .fault .secondCycle else .next (takeRead a s)

/-- A write is accepted now, or waits with UWAIT: no write is accepted while a pending commit is held
(R31 step 4, R33, R54). -/
def acceptOrWait (a : Addr) (data : Word) (lanes : Lanes) (cls : RegionClass) (tag : Word) (s : State) :
    State :=
  if s.hasSpace ∧ s.intake.pendingCommit = false then acceptWrite a data lanes cls s
  else holdCycle { addr := a, direction := .write, lanes := lanes, data := data, cls := cls, tag := tag,
                   watch := s.watchSettings, phase := .waitingWrite } (some s.freshTimer) s

/-- A write cycle with some lane arrives (R31): class, watch, gate, space. -/
def takeWrite (a : Addr) (data : Word) (lanes : Lanes) (s : State) : State :=
  let s := openCycle s
  let a := s.cycleAddr a
  if s.refusesState then refuse a .write .state 0 s
  else
    let look := s.lookup a
    let seen := s.observe a .write lanes data look.1
    let held := s.watchSettings
    let outcome := watchOutcome held seen
    let s := compareAll held seen s
    if look.1.refusesWrites then watchTrigger outcome (refuse a .write .cls look.2 s)
    else if watchRefuses outcome then watchTrigger outcome (refuse a .write .watch look.2 s)
    else if s.gateRefuses look.1 then refuse a .write .gate look.2 s
    else acceptOrWait a data lanes look.1 look.2 s

/-- UPSTREAM_WRITE (R31). A write with neither lane strobe is ended at once with neither UWAIT nor UBERR
(R22, log 14). -/
def execUpstreamWrite (a : Addr) (data : Word) (upper lower : Bool) (s : State) :
    Host.Outcome State Fault Refusal :=
  if s.up.cycle.isSome then .fault .secondCycle
  else match lanesOf upper lower with
    | none => .next (openCycle s)
    | some lanes => .next (takeWrite a data lanes s)

/-- WAITING_WRITE_CLAIM (R33): with no waiting write, or no entry for it, nothing is claimed (log 3). -/
def execWaitingWriteClaim (s : State) : Host.Outcome State Fault Refusal :=
  .next (claimFirst s)

/-- What the claim of a pending commit does: the request is taken again by steps 3, 4, 6 and 8 of R52. -/
def State.claimMakesToken (s : State) : Bool :=
  !s.commitBarred && (s.intake.dirty || s.tableReady)

/-- The auto-commit count after a claim that made no token: stopped with the dirty flag still set, it runs
again from 0 (R56 item 3, log 26). -/
def State.restartedAuto (s : State) : AutoCommit :=
  if s.intake.dirty ∧ s.intake.auto.running = false ∧ s.intake.interval ≠ 0 then
    { count := 0, running := true, due := false }
  else s.intake.auto

/-- PENDING_COMMIT_CLAIM (R54): with no pending commit, or no free entry, nothing is claimed (log 3). -/
def execPendingCommitClaim (s : State) : Host.Outcome State Fault Refusal :=
  .next (if s.intake.pendingCommit ∧ s.hasSpace then
    let s := s.setIntake { s.intake with pendingCommit := false }
    if s.claimMakesToken then makeToken s
    else s.setIntake { s.intake with auto := s.restartedAuto }
  else s)

/-- A hold runs out: a waiting write is refused; a held read is compared with FFFFh and then refused, and a
FREEZE outcome still triggers (R30, R33 item 3, R36, R143). -/
def expireHold (c : Cycle) (s : State) : State :=
  match c.phase with
  | .waitingWrite => refuse c.addr .write .timeout c.tag s
  | .readHeld =>
    let seen := s.observe c.addr .read .both 0xFFFF#16 c.cls
    watchTrigger (watchOutcome c.watch seen)
      (refuse c.addr .read .timeout c.tag (compareAll c.watch seen s))
  | .reading => s

/-- WAIT_LIMIT_EXPIRY (R33, R30): the wait timer of the hold in progress reaches its limit (log 2). With no
hold in progress nothing expires (log 3). -/
def execWaitLimitExpiry (s : State) : Host.Outcome State Fault Refusal :=
  .next (match s.up.cycle with
    | some c => expireHold c s
    | none => s)

/-- CHIP_SELECT_REMOVED (R22): UBERR is negated. -/
def execChipSelectRemoved (s : State) : Host.Outcome State Fault Refusal :=
  .next (s.setUp { s.up with uberr := false })

end Sys2Proof.Machine
end

