-- ==== Sys2Proof/Machine/Downstream.lean ====
section
/-! DEFINITION. The Downstream Port and the Store Engine's beginnings: ARBITER_GRANT, ACCESS_COMPLETE, TAKE_HEAD, LIVE_ROLLBACK_BEGIN (2.7, 4.1, 7.1). -/

namespace Sys2Proof.Machine

/-! ### The engine's beginnings -/

/-- A live rollback is ordered and its start condition holds (R65 step 1, R123). -/
def State.rollbackReady (s : State) : Bool :=
  decide (s.engine.work = .idle) && s.gate.order.isSome && s.startCondition

/-- The engine may take the head: it is IDLE, no rollback is ready, and R76 does not hold the head (R65). -/
def State.headReady (s : State) : Bool :=
  decide (s.engine.work = .idle) && !s.rollbackReady && !s.heldAtHead

/-- The engine takes the head, if it may (R65 step 2). -/
def takeHead (s : State) : State :=
  match s.queue.entries with
  | [] => s
  | e :: _ => if s.headReady then setDrain (s.firstStage e) s else s

/-- TAKE_HEAD (R65): otherwise the engine stays as it is. -/
def execTakeHead (s : State) : Host.Outcome State Fault Refusal := .next (takeHead s)

/-- A live rollback begins for an order of this origin (R124): the order is withdrawn, and the records are
restored, or the rollback ends EMPTY with none. -/
def beginRollback (o : Origin) (s : State) : State :=
  let r := s.newRollback o (.readSlot (s.engine.count.toNat - 1) s.engine.chain [])
  beginRestores r (setWork (.rollingBack r) (withdrawOrder s))

/-- The rollback that is ordered begins, if it can (R65 step 1). -/
def beginOrdered (s : State) : State :=
  match s.gate.order with
  | none => s
  | some o => if s.rollbackReady then beginRollback o s else s

/-- LIVE_ROLLBACK_BEGIN (R124): with no order held, or its start condition not met, none begins (log 3). -/
def execLiveRollbackBegin (s : State) : Host.Outcome State Fault Refusal := .next (beginOrdered s)

/-- An IDLE engine starts its next piece of work at once (R65). -/
def startWork (s : State) : State := takeHead (beginOrdered s)

/-! ### The arbiter -/

/-- A JOURNALED read that would be granted while the engine is ROLLING_BACK is held instead, and its wait
timer starts (R30). -/
def holdRead (s : State) : State :=
  match s.up.cycle with
  | none => s
  | some c =>
    if c.phase = .reading ∧ c.cls = .journaled ∧ s.rollingBack then
      s.setUp { s.up with cycle := some { c with phase := .readHeld }, timer := some s.freshTimer }
    else s

/-- The upstream read that claims the port: a read that is not held (R39). -/
def State.readClaim (s : State) : Option Access :=
  match s.up.cycle with
  | some c => if c.phase = .reading then some { addr := c.addr.toNat, write := none } else none
  | none => none

/-- An access is granted (R38). -/
def grant (o : Owner) (a : Access) (streak : Nat) (s : State) : State :=
  s.setPort { access := some (o, a), streak := streak }

/-- The grant by the read streak rule (R39, R40). -/
def arbitrate (s : State) : State :=
  match s.readClaim, s.engineAccess with
  | none, none => s
  | some r, none => grant .upstream r 0 s
  | none, some e => grant .engine e 0 s
  | some r, some e =>
    if s.port.streak < s.settings.streakLimit.toNat then grant .upstream r (s.port.streak + 1) s
    else grant .engine e 0 s

/-- ARBITER_GRANT (R39). The engine's next piece of work is started before the grant, so that its first access
waits with the read and the streak limit bounds the reads ahead of it (R40, R65, log 41). While an access is
under way, or with no claim, nothing is granted (log 3). -/
def execArbiterGrant (s : State) : Host.Outcome State Fault Refusal :=
  .next (match s.port.access with
    | some _ => s
    | none => arbitrate (holdRead (startWork s)))

/-! ### Completed accesses -/

/-- The word a read would return: memory, with forwarding for JOURNALED and DIRECT reads (R27, R28). -/
def State.readWord (s : State) (c : Cycle) (data : Word) : Word :=
  match c.cls with
  | .journaled => forward s.queue.entries c.addr data
  | .direct => forward s.queue.entries c.addr data
  | .guarded => data
  | .reserved => data
  | .closed => data

/-- The memory read of the current upstream read has completed: forwarding, comparison under the settings
held at arrival, and the end of the cycle (R27, R29, R36, R143). A read still under way when a FORMAT is
accepted ends in the same way (log 38). -/
def finishRead (data : Word) (s : State) : State :=
  match s.up.cycle with
  | none => s
  | some c =>
    let w := s.readWord c data
    let seen := s.observe c.addr .read .both w c.cls
    let outcome := watchOutcome c.watch seen
    let s := compareAll c.watch seen s
    if watchRefuses outcome then watchTrigger outcome (refuse c.addr .read .watch c.tag s)
    else answerRead w s

/-- An access completes: memory answers, the port is free, and the owner goes on (R38). -/
def completeAccess (o : Owner) (a : Access) (answer : Option Word) (s : State) : State :=
  let data := s.readAnswer a answer
  let s := s.setMem (s.memAfter a answer)
  let s := s.setPort { s.port with access := none }
  match o with
  | .upstream => finishRead data s
  | .engine => advanceEngine data s

/-- ACCESS_COMPLETE (R38). With no access under way nothing completes (log 3). -/
def execAccessComplete (answer : Option Word) (s : State) : Host.Outcome State Fault Refusal :=
  .next (match s.port.access with
    | none => s
    | some (o, a) => completeAccess o a answer s)

end Sys2Proof.Machine
end

