-- ==== Sys2Proof/Machine/Lines.lean ====
section
/-! DEFINITION. Samples of the input lines and the Timebase's events: SEAL, PFAIL, FAULT, ticks, auto-commit, the ATTN pulse (R55, R56, R104 to R106, R177, R180). -/

namespace Sys2Proof.Machine

/-! ### SEAL -/

/-- The stored SEAL level is updated (R55). -/
def storeSeal (asserted : Bool) (s : State) : State :=
  s.setIntake { s.intake with sealSample := some asserted }

/-- SEAL_EDGE (R55): a sample finds SEAL asserted. After a negated sample it is a rising edge and a commit
request; after an asserted one, or as the first sample, it makes no edge. -/
def execSealEdge (s : State) : Host.Outcome State Fault Refusal :=
  .next (match s.intake.sealSample with
    | some false => takeCommit (claimFirst (storeSeal true s))
    | some true => s
    | none => storeSeal true s)

/-- SEAL_NEGATED (R55): a sample finds SEAL negated. -/
def execSealNegated (s : State) : Host.Outcome State Fault Refusal := .next (storeSeal false s)

/-! ### PFAIL and FAULT -/

/-- A line sampled at this level when no run is in progress: at the active level a run begins, at the other
the line is released (R104). -/
def sampleFresh (l : InputLine) (high : Bool) (s : State) : State :=
  if high = s.activeLevel l then
    setInput l { active := false, run := some 0, last := some high,
                 qualified := decide (s.settings.inputFilter.toNat = 0) } s
  else setInput l { active := false, run := none, last := some high, qualified := false } s

/-- LINE_RUN_BEGIN (R104 item 1): a sample finds the line at its active level and begins a run. A run in
progress goes on (log 3). -/
def execLineRunBegin (l : InputLine) (s : State) : Host.Outcome State Fault Refusal :=
  .next (if (s.input l).run.isSome then s else sampleFresh l (s.activeLevel l) s)

/-- LINE_RELEASE (R104 item 3): a sample finds the line at its inactive level. -/
def execLineRelease (l : InputLine) (s : State) : Host.Outcome State Fault Refusal :=
  .next (sampleFresh l (!s.activeLevel l) s)

/-- The line's filter state becomes ACTIVE, its run having lasted the filter time (R104 item 2). -/
def activateLine (l : InputLine) (n : Nat) (s : State) : State :=
  setInput l { s.input l with
    active := true, qualified := true, run := some (max n s.settings.inputFilter.toNat) } s

/-- LINE_EVENT (R104, R106): the run in progress has lasted the filter time (log 2); the filter state
becomes ACTIVE, and an enabled line is a trigger in RUNNING and FROZEN. With no run, or ACTIVE already,
there is no event (log 3). -/
def execLineEvent (l : InputLine) (s : State) : Host.Outcome State Fault Refusal :=
  .next (match (s.input l).run with
    | none => s
    | some n =>
      if (s.input l).active then s
      else
        let s := activateLine l n s
        if s.lineEnabled l then lineTrigger l s else s)

/-- FIRST_SAMPLE (R55, R104): the first sample after a reset stores the SEAL level and the levels of both
lines, without an edge or an event; a line at its active level begins a run. A line already sampled is no
first sample (log 3). -/
def execFirstSample (sealAsserted pfailHigh faultHigh : Bool) (s : State) :
    Host.Outcome State Fault Refusal :=
  let s := if s.intake.sealSample.isNone then storeSeal sealAsserted s else s
  let s := if s.gate.pfail.last.isNone then sampleFresh .pfail pfailHigh s else s
  .next (if s.gate.fault.last.isNone then sampleFresh .fault faultHigh s else s)

/-! ### Ticks and auto-commit -/

/-- The auto-commit count at a tick (R56): off stops it at 0, a count stopped at 0 with the dirty flag set
starts, and a running count rises and stops at the interval with the request due (log 17). -/
def State.tickedAuto (s : State) : AutoCommit :=
  let a := s.intake.auto
  if s.settings.autoInterval = 0 then stoppedAuto
  else if a.running then
    let n := satInc a.count
    if s.settings.autoInterval.toNat ≤ n.toNat then { count := n, running := false, due := true }
    else { count := n, running := true, due := false }
  else if s.intake.dirty ∧ a.count = 0 then { count := 0, running := true, due := false }
  else a

/-- The CLK periods of the microsecond that a new tick begins with. At 1,000 microseconds that microsecond
has begun already and keeps its count; a TICK sent before begins it now, with the CLOCK RATE in force
(R177, log 2). -/
def State.tickPeriods (s : State) : Nat :=
  if 1000 ≤ s.time.us then s.time.perUs else s.settings.clockRate.toNat

/-- TICK (R177, R56): a millisecond is complete; the tick counter rises with wrap, and the auto-commit count
goes on by the interval setting, which is then in force. -/
def execTick (s : State) : Host.Outcome State Fault Refusal :=
  let s := s.setIntake { s.intake with auto := s.tickedAuto, interval := s.settings.autoInterval }
  .next (s.setTime { clk := 0, perUs := s.tickPeriods, us := 0, tick := s.time.tick + 1 })

/-- The auto-commit request is taken by R52, and the count goes on as R56 item 3 gives. -/
def takeAuto (s : State) : State :=
  let stopped := { s.intake.auto with running := false, due := false }
  match s.commitStep with
  | .token => makeToken s
  | .held => s.setIntake { s.intake with pendingCommit := true, auto := stopped }
  | .merged => s.setIntake { s.intake with auto := stopped }
  | .refusedBy _ => s.setIntake { s.intake with auto := { count := 0, running := true, due := false } }
  | .nothing => s.setIntake { s.intake with auto := stoppedAuto }

/-- AUTO_COMMIT_EXPIRY (R56): the count has reached the interval at a tick, and Intake takes the request.
With no request due there is none (log 3, log 17). -/
def execAutoCommitExpiry (s : State) : Host.Outcome State Fault Refusal :=
  .next (if s.intake.auto.due then takeAuto (claimFirst s) else s)

/-- ATTN_PULSE_END (R180): the timed pulse reaches its end (log 2) and ATTN is negated. With no pulse there
is no end (log 3). -/
def execAttnPulseEnd (s : State) : Host.Outcome State Fault Refusal :=
  .next (match s.events.pulse with
    | none => s
    | some _ => s.setEvents { s.events with attn := false, pulse := none })

end Sys2Proof.Machine
end

