-- ==== Sys2Proof/Machine/Sets.lean ====
section
/-! DEFINITION. The SET commands (R171): one meaning for the plain SET row and one for each setting with a row of its own. -/

namespace Sys2Proof.Machine

/-- SET as the owner of the setting answers it (R171): BADREQ for an unknown id or a value out of range,
else the setting takes the value. -/
def answerSet (id : Byte) (v : Word) (s : State) : Answer :=
  match settingOf id with
  | none => plain .badReq s
  | some x => if x.accepts v then plain .done (applySetting x v s) else plain .badReq s

/-- A SET frame (R171, R167). -/
def takeSet (id : Byte) (v : Word) (s : State) : State := takeCommand 3 (unlessBusy (answerSet id v)) s

/-- SET (R171). -/
def execSet (id : Byte) (v : Word) (s : State) : Host.Outcome State Fault Refusal := .next (takeSet id v s)

/-- SET_CLOCK_RATE (R177): the microsecond in progress keeps its length. -/
def execSetClockRate (v : Word) (s : State) : Host.Outcome State Fault Refusal :=
  .next (takeSet 0x01#8 v s)

/-- SET_FAULT_POLARITY (R105). -/
def execSetFaultPolarity (v : Word) (s : State) : Host.Outcome State Fault Refusal :=
  .next (takeSet 0x05#8 v s)

/-- SET_FREEZE_MASK (R106). -/
def execSetFreezeMask (v : Word) (s : State) : Host.Outcome State Fault Refusal :=
  .next (takeSet 0x06#8 v s)

/-- SET_FREEZE_SCOPE (R31, R33). -/
def execSetFreezeScope (v : Word) (s : State) : Host.Outcome State Fault Refusal :=
  .next (takeSet 0x0A#8 v s)

/-- SET_AUTO_COMMIT_INTERVAL (R56): it takes effect at the next tick. -/
def execSetAutoCommitInterval (v : Word) (s : State) : Host.Outcome State Fault Refusal :=
  .next (takeSet 0x0C#8 v s)

/-- SET_ATTN_MODE (R179). -/
def execSetAttnMode (v : Word) (s : State) : Host.Outcome State Fault Refusal :=
  .next (takeSet 0x0D#8 v s)

/-- SET_EVENT_ENABLES (R179, R180). -/
def execSetEventEnables (v : Word) (s : State) : Host.Outcome State Fault Refusal :=
  .next (takeSet 0x0F#8 v s)

end Sys2Proof.Machine
end

