-- ==== Sys2Proof/Machine/Dispatch.lean ====
section
/-! DEFINITION. exec: one arm per command, each one call of its meaning. -/

namespace Sys2Proof.Machine

/-- The effect of a command on everything but the queue of waiting commands. -/
def exec (i : Instr) (s : State) : Host.Outcome State Fault Refusal :=
  match i with
  | .reset msize maint => Sys2Proof.Machine.execReset msize maint s
  | .upstreamRead addr => Sys2Proof.Machine.execUpstreamRead addr s
  | .upstreamWrite addr data upper lower => Sys2Proof.Machine.execUpstreamWrite addr data upper lower s
  | .waitingWriteClaim => Sys2Proof.Machine.execWaitingWriteClaim s
  | .pendingCommitClaim => Sys2Proof.Machine.execPendingCommitClaim s
  | .waitLimitExpiry => Sys2Proof.Machine.execWaitLimitExpiry s
  | .arbiterGrant => Sys2Proof.Machine.execArbiterGrant s
  | .accessComplete answer => Sys2Proof.Machine.execAccessComplete answer s
  | .takeHead => Sys2Proof.Machine.execTakeHead s
  | .liveRollbackBegin => Sys2Proof.Machine.execLiveRollbackBegin s
  | .sealEdge => Sys2Proof.Machine.execSealEdge s
  | .lineEvent line => Sys2Proof.Machine.execLineEvent line s
  | .lineRelease line => Sys2Proof.Machine.execLineRelease line s
  | .tick => Sys2Proof.Machine.execTick s
  | .autoCommitExpiry => Sys2Proof.Machine.execAutoCommitExpiry s
  | .attnPulseEnd => Sys2Proof.Machine.execAttnPulseEnd s
  | .frameEnd bytes => Sys2Proof.Machine.execFrameEnd bytes s
  | .unknownCommand code => Sys2Proof.Machine.execUnknownCommand code s
  | .status => Sys2Proof.Machine.execStatus s
  | .commit => Sys2Proof.Machine.execCommit s
  | .loadTable base => Sys2Proof.Machine.execLoadTable base s
  | .thaw => Sys2Proof.Machine.execThaw s
  | .rollback => Sys2Proof.Machine.execRollback s
  | .format base slots => Sys2Proof.Machine.execFormat base slots s
  | .set id value => Sys2Proof.Machine.execSet id value s
  | .setClockRate value => Sys2Proof.Machine.execSetClockRate value s
  | .setFreezeMask value => Sys2Proof.Machine.execSetFreezeMask value s
  | .setFaultPolarity value => Sys2Proof.Machine.execSetFaultPolarity value s
  | .setFreezeScope value => Sys2Proof.Machine.execSetFreezeScope value s
  | .setAutoCommitInterval value => Sys2Proof.Machine.execSetAutoCommitInterval value s
  | .setEventEnables value => Sys2Proof.Machine.execSetEventEnables value s
  | .setAttnMode value => Sys2Proof.Machine.execSetAttnMode value s
  | .get id => Sys2Proof.Machine.execGet id s
  | .clearEvents mask => Sys2Proof.Machine.execClearEvents mask s
  | .readReport id => Sys2Proof.Machine.execReadReport id s
  | .clearWatch unit => Sys2Proof.Machine.execClearWatch unit s
  | .clearCounters => Sys2Proof.Machine.execClearCounters s
  | .freeze action => Sys2Proof.Machine.execFreeze action s
  | .chipSelectRemoved => Sys2Proof.Machine.execChipSelectRemoved s
  | .frameStart => Sys2Proof.Machine.execFrameStart s
  | .lineRunBegin line => Sys2Proof.Machine.execLineRunBegin line s
  | .sealNegated => Sys2Proof.Machine.execSealNegated s
  | .firstSample sealAsserted pfailHigh faultHigh => Sys2Proof.Machine.execFirstSample sealAsserted pfailHigh faultHigh s

end Sys2Proof.Machine
end

