-- ==== Sys2Proof/Machine/Idle.lean ====
section
/-! DEFINITION. What the part does when no command waits: its own acts that can be taken, or one CLK period of the Timebase (log 1, R177). -/

namespace Sys2Proof.Machine

/-! ### The part's own acts -/

/-- One act when its condition holds. -/
def actIf (b : Bool) (i : Instr) : List Instr := if b then [i] else []

/-- The wait timer has reached the limit that was in force when the hold began (R34). -/
def State.waitExpired (s : State) : Bool :=
  match s.up.timer with
  | some t => decide (t.limit ≤ t.elapsed)
  | none => false

/-- A line's run has lasted the filter time by its latest sample, and the line is not yet ACTIVE (R104). -/
def State.lineDue (s : State) (l : InputLine) : Bool :=
  (s.input l).run.isSome && (s.input l).qualified && !(s.input l).active

/-- The acts whose moment has come by the Timebase (R34, R104, R177, R56, R180; log 2). -/
def State.dueActs (s : State) : List Instr :=
  actIf s.waitExpired .waitLimitExpiry ++ actIf (s.lineDue .pfail) (.lineEvent .pfail) ++
  actIf (s.lineDue .fault) (.lineEvent .fault) ++ actIf (decide (1000 ≤ s.time.us)) .tick ++
  actIf s.intake.auto.due .autoCommitExpiry ++ actIf (decide (s.events.pulse = some 0)) .attnPulseEnd

/-- Something claims the free port (R39). -/
def State.portClaimed (s : State) : Bool :=
  s.port.access.isNone && (s.readClaim.isSome || s.engineAccess.isSome)

/-- The acts of Intake, the port and the Store Engine that can be taken now (R33, R54, R38, R39, R65, R123). -/
def State.readyActs (s : State) : List Instr :=
  actIf (s.intake.pendingCommit && s.hasSpace) .pendingCommitClaim ++
  actIf (s.writeWaits && s.writeMayClaim) .waitingWriteClaim ++
  actIf s.portClaimed .arbiterGrant ++ actIf s.port.access.isSome (.accessComplete none) ++
  actIf (!s.queue.entries.isEmpty && s.headReady) .takeHead ++ actIf s.rollbackReady .liveRollbackBegin

/-! ### One CLK period -/

/-- The wait timer one microsecond on (R34). -/
def WaitTimer.later (t : WaitTimer) : WaitTimer := { t with elapsed := t.elapsed + 1 }

/-- A line's sample one microsecond on, at the level of its last sample: a run in progress grows, a line at
its active level without a run begins one (R104, log 12). -/
def State.resample (s : State) (l : InputLine) : InputState :=
  let x := s.input l
  match x.run with
  | some n => { x with run := some (n + 1)
                       qualified := decide (s.settings.inputFilter.toNat ≤ n + 1) }
  | none =>
    if x.last = some (s.activeLevel l) then
      { x with run := some 0, qualified := decide (s.settings.inputFilter.toNat = 0) }
    else x

/-- A microsecond is complete: the durations in progress grow (log 22), and the next microsecond takes the
CLOCK RATE in force (R177). -/
def nextMicrosecond (s : State) : State :=
  let s := setInput .fault (s.resample .fault) (setInput .pfail (s.resample .pfail) s)
  let s := s.setUp { s.up with timer := s.up.timer.map WaitTimer.later }
  let s := s.setEvents { s.events with pulse := s.events.pulse.map Nat.pred }
  s.setTime { s.time with clk := 0, perUs := s.settings.clockRate.toNat, us := s.time.us + 1 }

/-- One CLK period (R177). -/
def clockPeriod (s : State) : State :=
  if s.time.clk + 1 < s.time.perUs then s.setTime { s.time with clk := s.time.clk + 1 }
  else nextMicrosecond s

/-! ### An empty command queue -/

/-- One of the acts, by a free choice, is put in the queue; past the last of them a CLK period passes
instead (log 1, log 8). -/
def chooseAct (acts : List Instr) (choices : Nat) (s : State) : State :=
  match acts[s.choose choices]? with
  | some i => (drawFree s).setPending [i]
  | none => clockPeriod (drawFree s)

/-- What the part does while no command waits: an act that is due by the Timebase is never put off by a CLK
period (log 1). -/
def idle (s : State) : State :=
  match s.dueActs, s.readyActs with
  | [], [] => clockPeriod s
  | [], ready => chooseAct ready (ready.length + 1) s
  | due, ready => chooseAct (due ++ ready) (due ++ ready).length s

end Sys2Proof.Machine
end

