-- ==== Sys2Proof/Machine/Step.lean ====
section
/-! DEFINITION. One step: the command at the front of the queue, or the part's own time when none waits. -/

namespace Sys2Proof.Machine

/-- One step of the part. -/
def step (s : State) : Host.Outcome State Fault Refusal :=
  match s.pending with
  | [] => .next (idle s)
  | c :: rest => exec c (s.setPending rest)

/-- The state with the command that a word spells at the front of its queue. No row gives bits, so no word
spells a command (log 24). -/
def State.withFetchWord (s : State) (nbits w : Nat) : State :=
  match decodeTableWord nbits w with
  | some c => s.setPending (c :: s.pending)
  | none => s

end Sys2Proof.Machine
end

