-- ==== Sys2Proof/Safety.lean ====
section
/-! DEFINITION. What stays true of the part at every step, and the words in which statements about it are made. -/

namespace Sys2Proof.Machine

/-! ### Properties that every step keeps -/

/-- The memory keeps its canonical form. -/
abbrev State.MemoryCanonical (s : State) : Prop := s.mem.wf = true

/-- FRZ and READY follow the operating state (R122, R183). -/
abbrev State.PinsFollow (s : State) : Prop :=
  s.gate.frz = decide (s.gate.opState = .frozen) ∧
  s.gate.ready = decide (s.gate.opState ≠ .recovering)

/-- The queue holds at most 16 entries (R43). -/
abbrev State.QueueFits (s : State) : Prop := s.queue.entries.length ≤ 16

/-- The line filter holds at most 64 lines, none twice; the removed-line list holds none twice and none
that is in the filter (R48, R49). -/
abbrev State.FilterSound (s : State) : Prop :=
  s.intake.filter.length ≤ 64 ∧ s.intake.filter.Nodup ∧ s.intake.removed.Nodup ∧
  s.intake.removed.all (fun l => decide (l ∉ s.intake.filter)) = true

/-- A watch unit holds a capture exactly when its hit count is not 0 (R147). -/
abbrev WatchUnit.Agrees (u : WatchUnit) : Prop := u.capture.isSome = decide (u.hits ≠ 0)

/-- All four units agree. -/
abbrev State.WatchAgrees (s : State) : Prop :=
  s.watch.u0.Agrees ∧ s.watch.u1.Agrees ∧ s.watch.u2.Agrees ∧ s.watch.u3.Agrees

/-- The current cycle is in a hold: a write waiting for space or a held read (R34). -/
def Upstream.holding (u : Upstream) : Bool :=
  match u.cycle with
  | some c => decide (c.phase ≠ .reading)
  | none => false

/-- UWAIT is asserted exactly while a cycle is current, and the wait timer runs exactly during a hold
(R22, R34). -/
abbrev State.CycleLinesFollow (s : State) : Prop :=
  s.up.uwait = s.up.cycle.isSome ∧ s.up.timer.isSome = s.up.holding

/-- The settings that take less than every value of their field stand in their ranges (R170). -/
abbrev State.SettingsInRange (s : State) : Prop :=
  8 ≤ s.settings.clockRate.toNat ∧ s.settings.clockRate.toNat ≤ 48 ∧
  1 ≤ s.settings.waitLimit.toNat ∧ s.settings.waitLimit.toNat ≤ 1023 ∧
  1 ≤ s.settings.streakLimit.toNat ∧ s.settings.streakLimit.toNat ≤ 15 ∧
  s.settings.inputFilter.toNat ≤ 15 ∧
  (s.settings.attnWidth = 1 ∨ s.settings.attnWidth = 2 ∨ s.settings.attnWidth = 4 ∨
    s.settings.attnWidth = 8)

/-- ATTN by the mode: in LEVEL mode it follows the enabled flags and no pulse is timed; in PULSE mode it is
asserted exactly while a pulse is timed (R179, R180). -/
def State.attnFollows (s : State) : Bool :=
  match s.settings.attnMode with
  | .level => decide (s.events.pulse = none) &&
      decide (s.events.attn = decide (s.events.flags &&& s.settings.enables ≠ 0))
  | .pulse => decide (s.events.attn = s.events.pulse.isSome)

/-- The engine is RECOVERING. -/
def Work.isRecovering : Work → Bool
  | .recovering _ => true
  | .idle | .draining _ | .rollingBack _ | .formatting _ => false

/-- The engine is FORMATTING. -/
def Work.isFormatting : Work → Bool
  | .formatting _ => true
  | .idle | .draining _ | .rollingBack _ | .recovering _ => false

/-- The begun head is an entry of the kind that its stage drains (R65). -/
def State.headFits (s : State) : Bool :=
  match s.engine.work, s.queue.entries with
  | .draining (.copy _), e :: _ => e.isJournaled
  | .draining (.record _), e :: _ => e.isJournaled
  | .draining .apply, .write _ :: _ => true
  | .draining (.anchor _), e :: _ => e.isSeal
  | .draining (.tableRead _ _), .tableToken _ :: _ => true
  | .draining _, _ => false
  | .idle, _ | .rollingBack _, _ | .recovering _, _ | .formatting _, _ => true

/-- The entry is a DIRECT WRITE. -/
def Entry.isDirect : Entry → Bool
  | .write w => w.mark.isNone
  | .sealToken _ _ | .tableToken _ => false

/-- The operating state agrees with the engine, the queue, the causes and the rollback order (R102, R23,
R44, R52, R88, R116, R121, R131, R138, R154). -/
abbrev State.ModesAgree (s : State) : Prop :=
  (s.gate.opState = .recovering ↔ s.engine.work.isRecovering = true) ∧
  (s.gate.opState = .formatting ↔ s.engine.work.isFormatting = true) ∧
  (s.gate.opState = .recovering ∨ s.gate.opState = .formatting →
    s.queue.entries = [] ∧ s.intake.pendingCommit = false ∧ s.gate.level = .none) ∧
  (s.gate.opState = .unformatted →
    s.intake.pendingCommit = false ∧ s.queue.entries.all Entry.isDirect = true) ∧
  s.headFits = true ∧
  (s.gate.opState = .running → s.gate.causes = noCauses ∧ s.gate.level = .none) ∧
  (s.gate.order.isSome = true ∨ s.rollingBack = true → s.gate.opState = .frozen)

/-- The group that a live rollback rolls back is the open group (R124). -/
def State.rollsOpenGroup (s : State) : Bool :=
  match s.engine.work with
  | .rollingBack r => decide (r.group = s.openGroup)
  | .idle | .draining _ | .recovering _ | .formatting _ => true

/-- The intake group number equals the closed group number plus one plus the number of SEAL tokens in the
queue (R3), with the agreements it rests on. -/
abbrev State.GroupsAgree (s : State) : Prop :=
  s.ModesAgree ∧ s.rollsOpenGroup = true ∧
  s.intake.group = s.engine.closed + 1 + BitVec.ofNat 32 (sealCount s.queue.entries)

/-! ### Words of the statements -/

/-- The state with the command of the frame in progress taken (R164). -/
def State.answered (s : State) (params : Nat) (r : Result) (response : List Byte) : State :=
  s.setLink { s.link with
    frame := some { taken := some { params := params, result := r, response := response } } }

/-- The result of the command taken in the frame in progress. -/
def State.frameResult (s : State) : Option Result :=
  match s.link.frame with
  | some f => f.taken.map Taken.result
  | none => none

/-- The response of the command taken in the frame in progress. -/
def State.frameResponse (s : State) : Option (List Byte) :=
  match s.link.frame with
  | some f => f.taken.map Taken.response
  | none => none

/-- No watch unit refuses a cycle: none has the action REFUSE or FREEZE. -/
def State.watchOnlyNotes (s : State) : Bool :=
  decide (s.watch.u0.settings.action = .note) && decide (s.watch.u1.settings.action = .note) &&
  decide (s.watch.u2.settings.action = .note) && decide (s.watch.u3.settings.action = .note)

/-- A flag of the Event Unit is set. -/
def State.flagged (s : State) (e : Event) : Bool := s.events.flags.getLsbD e.bit

/-- The blocks that a refusal leaves alone are the same in both states: everything but the Upstream Port,
the Event Unit and the watch units' results. -/
abbrev State.SameWork (s t : State) : Prop :=
  t.straps = s.straps ∧ t.port = s.port ∧ t.intake = s.intake ∧ t.queue = s.queue ∧
  t.engine = s.engine ∧ t.region = s.region ∧ t.gate = s.gate ∧ t.settings = s.settings ∧
  t.link = s.link ∧ t.time = s.time ∧ t.mem = s.mem ∧ t.pending = s.pending

/-- The flags of `t` are those of `s` with the events of `f` set. -/
abbrev State.FlagsGain (s t : State) (f : Event → Bool) : Prop :=
  ∀ e, t.flagged e = (s.flagged e || f e)

/-- One cycle of `s` has been refused (R35, R182). -/
abbrev State.Refuses (s t : State) (a : Addr) (d : Direction) (why : Reason) (tag : Word) : Prop :=
  t.up.cycle = none ∧ t.up.timer = none ∧ t.up.uwait = false ∧ t.up.uberr = true ∧
  (d = .read → t.up.readData = some 0xFFFF#16) ∧
  t.events.refusal =
    some { addr := a, direction := d, reason := why, tag := tag, tick := s.time.tick } ∧
  t.events.counters = { s.events.counters with
    classRefusals := if why = .cls then satInc s.events.counters.classRefusals
      else s.events.counters.classRefusals
    gateRefusals := if why = .gate ∨ why = .state then satInc s.events.counters.gateRefusals
      else s.events.counters.gateRefusals
    watchRefusals := if why = .watch then satInc s.events.counters.watchRefusals
      else s.events.counters.watchRefusals
    waitTimeouts := if why = .timeout then satInc s.events.counters.waitTimeouts
      else s.events.counters.waitTimeouts
    refusedReads := if d = .read then satInc s.events.counters.refusedReads
      else s.events.counters.refusedReads } ∧
  t.events.restore = s.events.restore ∧ s.SameWork t

/-- The watch units after a comparison: each unit that hits has one hit more and keeps the first capture
(R143, R147). -/
abbrev State.Compares (s t : State) (held : Four WatchSettings) (seen : WatchCapture) : Prop :=
  ∀ n : Fin 4, t.watch.get n =
    if (held.get n).hits seen then
      { s.watch.get n with hits := satInc (s.watch.get n).hits
                           capture := some ((s.watch.get n).capture.getD seen) }
    else s.watch.get n

/-- The event of a unit that this comparison hits. -/
def hitEvent (held : Four WatchSettings) (seen : WatchCapture) : Event → Bool
  | .watch n => (held.get n).hits seen
  | .groupSealed | .voided | .froze | .tableReady | .tableError | .refused | .waitOut | .recovered
  | .formatted => false

/-- A JOURNALED write to line `l` has been accepted into the intake group (R46, R48, R49, R50, R56). -/
abbrev State.AcceptsJournaled (s t : State) (a : Addr) (w : Word) (lanes : Lanes) : Prop :=
  ∃ first note : Bool,
    t.queue.entries = s.queue.entries ++
      [.write { addr := a, data := w, lanes := lanes,
                mark := some { group := s.intake.group, copyFirst := first, note := note } }] ∧
    t.intake.dirty = true ∧ t.intake.group = s.intake.group ∧
    t.intake.pendingCommit = s.intake.pendingCommit ∧ t.intake.sealSample = s.intake.sealSample ∧
    t.intake.interval = s.intake.interval ∧
    t.intake.auto = (if s.intake.dirty ∨ s.intake.interval = 0 then s.intake.auto
      else { count := 0, running := true, due := false }) ∧
    (lineOf a ∈ s.intake.filter → first = false ∧ note = false ∧
      t.intake.filter = s.intake.filter ∧ t.intake.removed = s.intake.removed) ∧
    (lineOf a ∉ s.intake.filter → first = true ∧ note = decide (lineOf a ∈ s.intake.removed) ∧
      (s.intake.filter.length < 64 → t.intake.filter = s.intake.filter ++ [lineOf a] ∧
        t.intake.removed = s.intake.removed.filter (fun l => decide (l ≠ lineOf a))) ∧
      (∀ oldest rest, s.intake.filter = oldest :: rest → 64 ≤ s.intake.filter.length →
        t.intake.filter = rest ++ [lineOf a] ∧
        t.intake.removed =
          s.intake.removed.filter (fun l => decide (l ≠ lineOf a)) ++ [oldest]))

/-- A write of this class has been accepted: its entry is at the tail and the cycle has ended (R32, R42,
R46). -/
abbrev State.Accepts (s t : State) (a : Addr) (w : Word) (lanes : Lanes) (cls : RegionClass) : Prop :=
  t.up.cycle = none ∧ t.up.timer = none ∧ t.up.uwait = false ∧
  t.queue.discardedWrites = s.queue.discardedWrites ∧
  t.queue.discardedTokens = s.queue.discardedTokens ∧
  (cls = .direct → t.intake = s.intake ∧ t.queue.entries = s.queue.entries ++
    [.write { addr := a, data := w, lanes := lanes, mark := none }]) ∧
  (cls = .journaled → s.AcceptsJournaled t a w lanes) ∧
  t = { s with up := t.up, queue := t.queue, intake := t.intake, watch := t.watch,
               events := { s.events with flags := t.events.flags, attn := t.events.attn,
                                         pulse := t.events.pulse } }

/-- A seal token has been made of the intake group: it carries the switch to a READY table, and Intake
begins the next group (R53, R93). -/
abbrev State.MakesToken (s t : State) : Prop :=
  t.queue.discardedWrites = s.queue.discardedWrites ∧
  t.queue.discardedTokens = s.queue.discardedTokens ∧
  t.intake = { s.intake with group := s.intake.group + 1, dirty := false, filter := [], removed := [],
                             pendingCommit := false,
                             auto := { count := 0, running := false, due := false } } ∧
  (s.tableReady = false → t.region = s.region ∧
    t.queue.entries = s.queue.entries ++ [.sealToken s.intake.group none]) ∧
  (∀ x, s.region.state = .ready x →
    t.region = { s.region with active := some x, retiring := s.region.active, state := .none } ∧
    t.queue.entries = s.queue.entries ++ [.sealToken s.intake.group
      (some { base := x.base, count := BitVec.ofNat 16 x.descs.length })]) ∧
  t = { s with queue := t.queue, intake := t.intake, region := t.region }

/-- Steps 3 and 4 of R52 stop a commit request: cause ANCHOR, cause EXHAUSTED, or the group number limit
(R4, R5). -/
abbrev State.CommitBarred (s : State) : Prop :=
  s.gate.causes.anchor = true ∨ s.gate.causes.exhausted = true ∨
  (match s.engine.work with
    | .rollingBack _ => if s.engine.count = 0 then 0xFFFFFFFE#32 else 0xFFFFFFFD#32
    | _ => 0xFFFFFFFE#32).toNat < s.intake.group.toNat

/-- There is something to close: the intake group is dirty, or a staged table is READY (R52 step 6). -/
abbrev State.HasWork (s : State) : Prop :=
  s.intake.dirty = true ∨ s.tableReady = true

/-- A STOP order has been taken: behind the last SEAL token every JOURNALED WRITE but a begun head has gone
and has been counted, Intake is cleared with I unchanged, and the intake group is abandoned when the
dirty flag stood, or when it is the open group and has records (R59, R61, R111). -/
abbrev State.Stops (s t : State) : Prop :=
  (∀ begun front back, s.queue.entries = begun ++ front ++ back →
    begun.length = (if s.headBegun then min 1 s.queue.entries.length else 0) →
    (front = [] ∨ ∃ q g sw, front = q ++ [.sealToken g sw]) →
    back.all (fun e => !e.isSeal) = true →
    t.queue.entries = begun ++ front ++ back.filter (fun e => !e.isJournaled) ∧
    t.queue.discardedWrites =
      satAdd s.queue.discardedWrites (back.filter (fun e => e.isJournaled)).length) ∧
  t.queue.discardedTokens = s.queue.discardedTokens ∧
  t.intake = { s.intake with dirty := false, filter := [], removed := [], pendingCommit := false,
                             auto := { count := 0, running := false, due := false } } ∧
  t.engine = { s.engine with
    abandoned :=
      if s.intake.dirty = true ∨ (s.engine.closed + 1 = s.intake.group ∧ s.engine.count ≠ 0) then
        some s.intake.group
      else s.engine.abandoned }

/-- A table holds a descriptor with the same bounds, class and tag, and with LOCK (R91 item 2). -/
abbrev Table.KeepsLock (x : Table) (l : Descriptor) : Prop :=
  ∃ d ∈ x.descs, d.first = l.first ∧ d.last = l.last ∧ d.cls = l.cls ∧ d.tag = l.tag ∧
    d.flags.getLsbD 1 = true

/-- The read of a TABLE token's table has ended: the table state, the result and the event, and the token
has left the queue (R91, R92). -/
abbrev State.EndsTableRead (s t : State) (q : List Entry) (state : TableState) (event : Event)
    (result : TableResult) : Prop :=
  s.FlagsGain t (fun e => decide (e = event)) ∧
  t = { s with
    port := { s.port with access := none }
    region := { s.region with state := state, result := result }
    queue := { s.queue with entries := q }
    engine := { s.engine with work := .idle }
    events := { s.events with flags := t.events.flags, attn := t.events.attn
                              pulse := t.events.pulse } }

/-- Recovery with a current anchor has ended: the active table and the table result, cause TABLE for a
rejected table, the lines examined, the operating state with its lines, and the report (R99, R133, R138). -/
abbrev State.EndsRecovery (s t : State) (r : Recovery) (active : Option Table) (rejected : Bool)
    (result : TableResult) : Prop :=
  t.region = { s.region with active := active, result := result } ∧
  t.engine = { s.engine with work := .idle, count := 0, chain := 0, abandoned := none } ∧
  t.queue = { s.queue with discardedWrites := 0, discardedTokens := 0 } ∧
  t.gate = { s.gate with
    causes := { s.gate.causes with
      table := s.gate.causes.table || rejected
      pfail := s.gate.causes.pfail || (s.settings.pfailEnabled && s.gate.pfail.active)
      fault := s.gate.causes.fault || (s.settings.faultEnabled && s.gate.fault.active) }
    opState := if t.gate.causes.any then .frozen else .running
    frz := t.gate.causes.any
    ready := true } ∧
  s.FlagsGain t (fun e => decide (e = .recovered) || (t.gate.causes.any && decide (e = .froze)) ||
    (rejected && decide (e = .tableError))) ∧
  (r.found = 0 → t.events.restore.outcome = .clean) ∧
  (∀ slot, r.found ≠ 0 → r.stop = some (slot, .sequence) → t.events.restore.outcome = .rolledBack) ∧
  (∀ slot, r.found ≠ 0 → r.stop = some (slot, .torn) → t.events.restore.outcome = .rolledBackTorn) ∧
  (∀ slot, r.found ≠ 0 → r.stop = some (slot, .windowEnd) →
    t.events.restore.outcome = .rolledBackEnd) ∧
  (∀ c0 c1, r.classes = some (c0, c1) →
    (t.events.restore.tornAnchor = true ↔ (c0 = .valid ↔ c1 ≠ .valid))) ∧
  t.events.restore =
    { origin := .startUp, outcome := t.events.restore.outcome, examined := r.examined
      closed := s.engine.closed, found := r.found, restored := r.restored
      stopSlot := r.stop.map (fun x => x.1), stopReason := r.stop.map (fun x => x.2)
      mismatches := r.mismatches, anchorIndex := r.current, classes := r.classes
      tornAnchor := t.events.restore.tornAnchor, discardedWrites := s.queue.discardedWrites
      discardedTokens := s.queue.discardedTokens, tick := s.time.tick } ∧
  t = { s with region := t.region, engine := t.engine, queue := t.queue, gate := t.gate
               events := { s.events with flags := t.events.flags, attn := t.events.attn
                                         pulse := t.events.pulse, restore := t.events.restore } }

end Sys2Proof.Machine

namespace Sys2Proof

/-- The commands that the control link passes on: every row of the table that is taken in a frame, but for
UNKNOWN_COMMAND (10.2). -/
def Instr.isLinkCommand : Instr → Bool
  | .status | .commit | .loadTable _ | .thaw | .rollback | .format _ _ | .set _ _ | .setClockRate _
  | .setFreezeMask _ | .setFaultPolarity _ | .setFreezeScope _ | .setAutoCommitInterval _
  | .setEventEnables _ | .setAttnMode _ | .get _ | .clearEvents _ | .readReport _ | .clearWatch _
  | .clearCounters | .freeze _ => true
  | .reset _ _ | .upstreamRead _ | .upstreamWrite _ _ _ _ | .waitingWriteClaim | .pendingCommitClaim
  | .waitLimitExpiry | .arbiterGrant | .accessComplete _ | .takeHead | .liveRollbackBegin | .sealEdge
  | .lineEvent _ | .lineRelease _ | .tick | .autoCommitExpiry | .attnPulseEnd | .frameEnd _
  | .unknownCommand _ | .chipSelectRemoved | .frameStart | .lineRunBegin _ | .sealNegated
  | .firstSample _ _ _ => false

/-- The link commands that RECOVERING and FORMATTING execute (R167). -/
def Instr.isReadout : Instr → Bool
  | .status | .get _ | .readReport _ => true
  | _ => false

/-- The commands that begin an upstream cycle. -/
def Instr.isCycle : Instr → Bool
  | .upstreamRead _ | .upstreamWrite _ _ _ _ => true
  | _ => false

/-- The SET command with its setting id and value, whichever row it is. -/
def Instr.setOf : Instr → Option (Byte × Word)
  | .set id v => some (id, v)
  | .setClockRate v => some (0x01#8, v)
  | .setFaultPolarity v => some (0x05#8, v)
  | .setFreezeMask v => some (0x06#8, v)
  | .setFreezeScope v => some (0x0A#8, v)
  | .setAutoCommitInterval v => some (0x0C#8, v)
  | .setAttnMode v => some (0x0D#8, v)
  | .setEventEnables v => some (0x0F#8, v)
  | _ => none

end Sys2Proof
end

