-- ==== Sys2Proof/Certificates/Slice0/Obligations.lean ====
section
/-! DEFINITION. The statements for the provers, family by family. -/

section

open Sys2Proof Sys2Proof.Machine

/-! ### The step and the queue of commands -/

/-- A step takes the command at the front of the queue and is its meaning on the queue's rest. -/
def Obligations.StepTakesFront : Prop :=
  ∀ (s : State) (c : Instr) (q : List Instr), s.pending = c :: q →
    step s = exec c (s.setPending q)

/-- With no command waiting the part always goes on: one act that is due by the Timebase or ready is put in the
queue, or one CLK period passes, which an act that is due never waits for; that, and the choice among the acts,
is the model's (logs 1 and 8). An act is due when the wait timer has reached the limit of its hold, the run of a
line not yet ACTIVE has qualified, 1,000 microseconds have passed, an auto-commit request waits (log 17), or the
pulse has no time left. A period adds one to the CLK count; the last period of a microsecond begins the count
again with the CLOCK RATE in force and adds one to the microseconds, the wait timer and a line's run, takes one
from the pulse and samples each line at its last level: that all of them move at that edge, and that the level
stays between commands, are the model's choice (logs 12 and 22). It changes no memory, no queue entry, no number
of the engine, no state of the gate and no report. -/
def Obligations.IdleKeepsWork : Prop :=
  (∀ s : State, s.pending = [] → ∃ t, step s = .next t ∧
    t.straps = s.straps ∧ t.port = s.port ∧ t.intake = s.intake ∧ t.queue = s.queue ∧
    t.engine = s.engine ∧ t.region = s.region ∧ t.watch = s.watch ∧ t.settings = s.settings ∧
    t.link = s.link ∧ t.mem = s.mem ∧ t.up.cycle = s.up.cycle ∧ t.up.uwait = s.up.uwait ∧
    t.up.uberr = s.up.uberr ∧ t.up.readData = s.up.readData ∧ t.gate.opState = s.gate.opState ∧
    t.gate.causes = s.gate.causes ∧ t.gate.level = s.gate.level ∧ t.gate.order = s.gate.order ∧
    t.gate.frz = s.gate.frz ∧ t.gate.ready = s.gate.ready ∧ t.events.flags = s.events.flags ∧
    t.events.counters = s.events.counters ∧ t.events.refusal = s.events.refusal ∧
    t.events.restore = s.events.restore ∧ t.events.attn = s.events.attn ∧ t.time.tick = s.time.tick ∧
    (s.dueActs = [] → s.readyActs = [] → t = clockPeriod s) ∧
    (s.dueActs ≠ [] ∨ s.readyActs ≠ [] →
      (∃ i, (i ∈ s.dueActs ∨ i ∈ s.readyActs) ∧ t = { s with free := s.free + 1, pending := [i] }) ∨
      (s.dueActs = [] ∧ t = clockPeriod { s with free := s.free + 1 }))) ∧
  (∀ (s : State) (i : Instr), i ∈ s.dueActs ↔
    (i = .waitLimitExpiry ∧ ∃ w, s.up.timer = some w ∧ w.limit ≤ w.elapsed) ∨
    (∃ l, i = .lineEvent l ∧ (s.input l).run ≠ none ∧ (s.input l).qualified = true ∧
      (s.input l).active = false) ∨
    (i = .tick ∧ 1000 ≤ s.time.us) ∨ (i = .autoCommitExpiry ∧ s.intake.auto.due = true) ∨
    (i = .attnPulseEnd ∧ s.events.pulse = some 0)) ∧
  (∀ (s : State) (i : Instr), i ∈ s.readyActs ↔
    (i = .pendingCommitClaim ∧ s.intake.pendingCommit = true ∧ s.queue.entries.length < 16) ∨
    (i = .waitingWriteClaim ∧ (∃ c, s.up.cycle = some c ∧ c.phase = .waitingWrite) ∧
      s.intake.pendingCommit = false ∧ s.queue.entries.length < 16) ∨
    (i = .arbiterGrant ∧ s.port.access = none ∧
      ((∃ c, s.up.cycle = some c ∧ c.phase = .reading) ∨ s.engineAccess ≠ none)) ∨
    (i = .accessComplete none ∧ s.port.access ≠ none) ∨
    (i = .takeHead ∧ s.engine.work = .idle ∧ (s.gate.order = none ∨ s.startCondition = false) ∧
      ∃ e q, s.queue.entries = e :: q ∧ ∀ g sw, e = .sealToken g sw → s.engine.abandoned ≠ some g) ∨
    (i = .liveRollbackBegin ∧ s.engine.work = .idle ∧ s.gate.order ≠ none ∧
      s.startCondition = true)) ∧
  ∀ s : State,
    (s.time.clk + 1 < s.time.perUs →
      clockPeriod s = { s with time := { s.time with clk := s.time.clk + 1 } }) ∧
    (s.time.perUs ≤ s.time.clk + 1 → ∃ p f : InputState,
      clockPeriod s = { s with
        up := { s.up with timer := s.up.timer.map (fun w => { w with elapsed := w.elapsed + 1 }) }
        gate := { s.gate with pfail := p, fault := f }
        events := { s.events with pulse := s.events.pulse.map (fun n => n - 1) }
        time := { clk := 0, perUs := s.settings.clockRate.toNat, us := s.time.us + 1
                  tick := s.time.tick } } ∧
      ∀ l x, (l = .pfail ∧ x = p) ∨ (l = .fault ∧ x = f) →
        (∀ n, (s.input l).run = some n → x = { s.input l with
          run := some (n + 1), qualified := decide (s.settings.inputFilter.toNat ≤ n + 1) }) ∧
        ((s.input l).run = none → (s.input l).last = some (s.activeLevel l) → x = { s.input l with
          run := some 0, qualified := decide (s.settings.inputFilter = 0) }) ∧
        ((s.input l).run = none → (s.input l).last ≠ some (s.activeLevel l) → x = s.input l))

/-- Every command answers a next state, but for an upstream cycle while another is current, which the
manual excludes and the model stops on (log 4). -/
def Obligations.CommandsComplete : Prop :=
  (∀ (c : Instr) (s : State), c.isCycle = false ∨ s.up.cycle = none → ∃ t, exec c s = .next t) ∧
  (∀ (c : Instr) (s : State), c.isCycle = true → s.up.cycle ≠ none → exec c s = .fault .secondCycle)

/-! ### Reset -/

/-- RESET leaves the straps as sampled and the named state at the values the manual gives for either
reset: the engine begins recovery by reading the anchors, and every byte of the restore report reads 0. That
the waiting commands and the CSN level stay and the word on the data lines goes, that the link must first see
a low CSN rise, and that the CLK count is part of the counts that begin again, are the model's readings (logs
10, 21, 31 and 36); the flags for a request that is due and for a run that qualifies are fields of the model
alone (logs 12, 17 and 33). -/
def Obligations.ResetValues : Prop :=
  ∀ (msize : BitVec 2) (maint : Bool) (s : State), ∃ t, exec (.reset msize maint) s = .next t ∧
    t.straps = { msize := msize, maint := maint } ∧
    t.up.cycle = none ∧ t.up.timer = none ∧ t.up.uwait = false ∧ t.up.uberr = false ∧
    t.up.readData = none ∧ t.port.access = none ∧ t.port.streak = 0 ∧
    t.intake.group = 1 ∧ t.intake.dirty = false ∧ t.intake.filter = [] ∧ t.intake.removed = [] ∧
    t.intake.pendingCommit = false ∧ t.intake.auto.count = 0 ∧ t.intake.auto.running = false ∧
    t.intake.auto.due = false ∧ t.intake.interval = 0 ∧ t.intake.sealSample = none ∧
    t.queue.entries = [] ∧ t.queue.discardedWrites = 0 ∧ t.queue.discardedTokens = 0 ∧
    t.engine.work = .recovering { classes := none, current := none, examined := none, found := 0,
                                  restored := 0, mismatches := 0, stop := none, phase := .anchors [] } ∧
    t.engine.work.isRecovering = true ∧ t.engine.closed = 0 ∧ t.engine.count = 0 ∧
    t.engine.chain = 0 ∧ t.engine.abandoned = none ∧
    t.engine.durable = { windowBase := 0, slotCount := 0, tableBase := 0, tableCount := 0,
                         formatCount := 0 } ∧
    t.region.active = none ∧ t.region.state = .none ∧ t.region.retiring = none ∧
    t.region.result = { outcome := .notRun, origin := .load, base := 0, read := 0, index := 0,
                        tick := 0 } ∧
    t.gate.opState = .recovering ∧ t.gate.causes.any = false ∧ t.gate.level = .none ∧
    t.gate.order = none ∧ t.gate.frz = false ∧ t.gate.ready = false ∧
    (∀ l : InputLine, (t.input l).active = false ∧ (t.input l).run = none ∧
      (t.input l).last = none ∧ (t.input l).qualified = false) ∧
    (∀ n : Fin 4, (t.watch.get n).hits = 0 ∧ (t.watch.get n).capture = none ∧
      (t.watch.get n).settings = { low := 0, high := 0, direction := .read, value := 0, mask := 0,
                                   cls := .direct, enables := 0, action := .note }) ∧
    t.settings = { clockRate := 16, waitLimit := 64, streakLimit := 4, inputFilter := 2,
                   faultPolarity := .highActive, pfailEnabled := true, faultEnabled := false,
                   pfailAction := .stop, faultAction := .stop, watchAction := .stop,
                   scope := .journaledOnly, verify := false, autoInterval := 0, attnMode := .level,
                   attnWidth := 4, enables := 0 } ∧
    t.events.flags = 0 ∧ t.events.refusal = none ∧ t.events.restore.outcome = .notRun ∧
    t.events.restore = { origin := .startUp, outcome := .notRun, examined := none, closed := 0, found := 0,
                         restored := 0, stopSlot := none, stopReason := none, mismatches := 0,
                         anchorIndex := none, classes := none, tornAnchor := false,
                         discardedWrites := 0, discardedTokens := 0, tick := 0 } ∧
    t.events.restore.bytes = List.replicate 28 0 ∧
    t.events.counters.bytes = List.replicate 16 0 ∧ t.events.attn = false ∧ t.events.pulse = none ∧
    t.link.frame = none ∧ t.link.last = .none ∧ (∀ i, t.sdo i = none) ∧
    t.link.csnLow = s.link.csnLow ∧ t.link.seenHigh = !s.link.csnLow ∧
    t.time.clk = 0 ∧ t.time.perUs = 16 ∧ t.time.us = 0 ∧ t.time.tick = 0 ∧ t.pending = s.pending

/-! ### What every step keeps -/

/-- The state right after reset has every property below. What the board gives that state, and the form of its
memory, are the model's choice (logs 5 and 9). -/
def Obligations.ResetIsSafe : Prop :=
  State.reset.MemoryCanonical ∧ State.reset.PinsFollow ∧ State.reset.QueueFits ∧
  State.reset.FilterSound ∧ State.reset.WatchAgrees ∧ State.reset.CycleLinesFollow ∧
  State.reset.SettingsInRange ∧ State.reset.attnFollows = true ∧ State.reset.ModesAgree ∧
  State.reset.GroupsAgree

/-- The memory keeps its canonical form. -/
def Obligations.StepKeepsMemoryCanonical : Prop :=
  ∀ s t : State, s.MemoryCanonical → step s = .next t → t.MemoryCanonical

/-- READY is negated exactly in RECOVERING, and FRZ is asserted exactly in FROZEN. -/
def Obligations.StepKeepsPins : Prop :=
  ∀ s t : State, s.PinsFollow → step s = .next t → t.PinsFollow

/-- The queue never holds more than 16 entries. -/
def Obligations.StepKeepsQueueFits : Prop :=
  ∀ s t : State, s.QueueFits → step s = .next t → t.QueueFits

/-- The line filter holds at most 64 lines, none twice, and none of the removed-line list's. -/
def Obligations.StepKeepsFilterSound : Prop :=
  ∀ s t : State, s.FilterSound → step s = .next t → t.FilterSound

/-- A watch unit holds a capture exactly when its hit count is not 0. -/
def Obligations.StepKeepsWatchAgrees : Prop :=
  ∀ s t : State, s.WatchAgrees → step s = .next t → t.WatchAgrees

/-- UWAIT is asserted exactly while a cycle is current, and the wait timer runs exactly during a hold. -/
def Obligations.StepKeepsCycleLines : Prop :=
  ∀ s t : State, s.CycleLinesFollow → step s = .next t → t.CycleLinesFollow

/-- The settings stay in their ranges. -/
def Obligations.StepKeepsSettingsInRange : Prop :=
  ∀ s t : State, s.SettingsInRange → step s = .next t → t.SettingsInRange

/-- ATTN follows the enabled flags in LEVEL mode and the timed pulse in PULSE mode. In PULSE mode every command
but CLEAR EVENTS, ATTN_PULSE_END and a SET of the mode, the width or the enables that changes it, which other
statements treat, asserts ATTN and times the pulse to ATTN PULSE WIDTH if it sets an enabled flag that was clear,
also during a pulse, and leaves ATTN and the pulse as they are if it sets none. That the pulse then ends one
width after the request also where it was timed to end later is the model's choice (log 40). -/
def Obligations.StepKeepsAttn : Prop :=
  (∀ s t : State, s.attnFollows = true → step s = .next t → t.attnFollows = true) ∧
  ∀ (c : Instr) (s t : State), exec c s = .next t → (∀ m, c ≠ .clearEvents m) → c ≠ .attnPulseEnd →
    s.settings.attnMode = .pulse → t.settings.attnMode = .pulse →
    t.settings.attnWidth = s.settings.attnWidth → t.settings.enables = s.settings.enables →
    ((∃ e : Event, s.flagged e = false ∧ t.flagged e = true ∧ s.settings.enables.getLsbD e.bit = true) →
      t.events.attn = true ∧ t.events.pulse = some s.settings.attnWidth.toNat) ∧
    ((∀ e : Event, s.flagged e = false → t.flagged e = true →
        s.settings.enables.getLsbD e.bit = false) →
      t.events.attn = s.events.attn ∧ t.events.pulse = s.events.pulse)

/-- The operating state agrees with the engine, the queue, the causes and the rollback order. -/
def Obligations.StepKeepsModes : Prop :=
  ∀ s t : State, s.ModesAgree → step s = .next t → t.ModesAgree

/-- The intake group number stays the closed group number plus one plus the number of SEAL tokens, as 32-bit
numbers: that the sum wraps where a held token of the last group is renumbered is the model's choice
(log 39). -/
def Obligations.StepKeepsGroups : Prop :=
  ∀ s t : State, s.GroupsAgree → step s = .next t → t.GroupsAgree

/-- FRZ follows FROZEN, and FROZE is raised at each entry into FROZEN and by no command that does not enter
FROZEN, whatever the enables. -/
def Obligations.FrozeAtEntry : Prop :=
  ∀ (c : Instr) (s t : State), s.ModesAgree → s.PinsFollow → exec c s = .next t →
    t.gate.frz = decide (t.gate.opState = .frozen) ∧
    (s.gate.opState ≠ .frozen → t.gate.opState = .frozen → t.flagged .froze = true) ∧
    (s.gate.opState = .frozen ∨ t.gate.opState ≠ .frozen → s.flagged .froze = false →
      t.flagged .froze = false)

/-- Memory changes only where an access writes: no other command changes it, a completed access reaches no
byte outside the word of its write and leaves in that word the lanes it carries beside the lane it does not
carry, and a reset reaches none outside the word of a write it cuts off. The model's own part in it: the upper
lane of word a is cell 2a and the lower 2a + 1 (log 11), memory changes at the completion of an access and not
at its grant (log 29), a completion with no access changes nothing (log 3), and a memory which answers with
another word holds it in both lanes (log 6). -/
def Obligations.MemoryWrittenByAccesses : Prop :=
  (∀ (m : Memory) (n : Nat) (h l : Byte) (w : Word),
    m.word n = joinBytes (m.byte (2 * n)) (m.byte (2 * n + 1)) ∧ joinBytes h l = h ++ l ∧
    hiByte w = w.extractLsb' 8 8 ∧ loByte w = w.extractLsb' 0 8) ∧
  (∀ (c : Instr) (s t : State), (∀ w, c ≠ .accessComplete w) → (∀ m b, c ≠ .reset m b) →
    exec c s = .next t → t.mem = s.mem) ∧
  (∀ (answer : Option Word) (s t : State) (o : Owner) (a : Access), s.port.access = some (o, a) →
    exec (.accessComplete answer) s = .next t →
    (∀ i, a.write = none ∨ i / 2 ≠ a.addr % s.top → t.mem.byte i = s.mem.byte i) ∧
    (∀ w lanes, a.write = some (w, lanes) → s.MemoryCanonical →
      (answer = none →
        t.mem.byte (2 * (a.addr % s.top)) =
          (if lanes = .lower then s.mem.byte (2 * (a.addr % s.top)) else hiByte w) ∧
        t.mem.byte (2 * (a.addr % s.top) + 1) =
          (if lanes = .upper then s.mem.byte (2 * (a.addr % s.top) + 1) else loByte w)) ∧
      (∀ x, answer = some x →
        t.mem.byte (2 * (a.addr % s.top)) = hiByte x ∧
        t.mem.byte (2 * (a.addr % s.top) + 1) = loByte x))) ∧
  (∀ (answer : Option Word) (s t : State), s.port.access = none →
    exec (.accessComplete answer) s = .next t → t.mem = s.mem) ∧
  (∀ (m : BitVec 2) (b : Bool) (s t : State), exec (.reset m b) s = .next t →
    ∀ i, (∀ o a, s.port.access = some (o, a) → a.write = none ∨ i / 2 ≠ a.addr % s.top) →
      t.mem.byte i = s.mem.byte i)

/-! ### Upstream cycles: arrival -/

/-- While the part recovers or formats, every cycle is refused with reason STATE and region tag 0, and no
watch unit compares it. -/
def Obligations.StateRefusal : Prop :=
  ∀ (s : State) (a : Addr) (w : Word) (u l : Bool),
    s.gate.opState = .recovering ∨ s.gate.opState = .formatting → s.up.cycle = none →
    (u || l) = true →
    (∃ t, exec (.upstreamRead a) s = .next t ∧ s.Refuses t (s.cycleAddr a) .read .state 0 ∧
      t.watch = s.watch ∧ s.FlagsGain t (fun e => decide (e = .refused))) ∧
    (∃ t, exec (.upstreamWrite a w u l) s = .next t ∧ s.Refuses t (s.cycleAddr a) .write .state 0 ∧
      t.watch = s.watch ∧ s.FlagsGain t (fun e => decide (e = .refused)))

/-- A write with neither lane strobe is ended at once with neither UWAIT nor UBERR, and does nothing else;
the removal of the chip-select negates UBERR and changes nothing else. That the first holds in every state
is the model's choice where two rules meet (log 14), and that no earlier word is on the data lines then is
its form of them (log 21). -/
def Obligations.CycleEnds : Prop :=
  (∀ (s : State) (a : Addr) (w : Word), s.up.cycle = none →
    exec (.upstreamWrite a w false false) s =
      .next { s with up := { s.up with uberr := false, readData := none } }) ∧
  (∀ s : State, exec .chipSelectRemoved s = .next { s with up := { s.up with uberr := false } })

/-- Class and region tag of an address: reserved areas first, then the first covering descriptor of the
active table, else DIRECT with tag 0; in UNFORMATTED always DIRECT. A cycle's address is taken within the
width of the memory. -/
def Obligations.LookupOrder : Prop :=
  ∀ (s : State) (a : Addr) (held : Prop),
    (held ↔
      (2 ^ (18 + s.straps.msize.toNat) - 32 ≤ a.toNat ∧
        a.toNat ≤ 2 ^ (18 + s.straps.msize.toNat) - 1) ∨
      (s.engine.durable.slotCount ≠ 0 ∧ s.engine.durable.windowBase.toNat ≤ a.toNat ∧
        a.toNat ≤ s.engine.durable.windowBase.toNat + 16 * s.engine.durable.slotCount.toNat - 1) ∨
      (∃ x, (s.region.active = some x ∨ s.region.retiring = some x ∨ s.region.state = .ready x) ∧
        x.base.toNat ≤ a.toNat ∧ a.toNat ≤ x.base.toNat + 8 * x.descs.length - 1) ∨
      (∃ b, s.region.state = .pending b ∧ b.toNat ≤ a.toNat ∧ a.toNat ≤ b.toNat + 127 ∧
        a.toNat ≤ 2 ^ (18 + s.straps.msize.toNat) - 1)) →
    (s.cycleAddr a).toNat = a.toNat % 2 ^ (18 + s.straps.msize.toNat) ∧
    s.top = 2 ^ (18 + s.straps.msize.toNat) ∧ (∀ i, s.anchorAddr i = s.top - 32 + 16 * i) ∧
    (s.gate.opState = .unformatted → s.lookup a = (.direct, 0)) ∧
    (s.gate.opState = .running ∨ s.gate.opState = .frozen →
      (held → s.lookup a = (.reserved, 0)) ∧
      (∀ x before d after, ¬held → s.region.active = some x → x.descs = before ++ d :: after →
        d.first.toNat ≤ a.toNat → a.toNat ≤ d.last.toNat →
        (∀ e ∈ before, a.toNat < e.first.toNat ∨ e.last.toNat < a.toNat) →
        s.lookup a = (d.cls, d.tag)) ∧
      (¬held →
        (∀ x, s.region.active = some x →
          ∀ e ∈ x.descs, a.toNat < e.first.toNat ∨ e.last.toNat < a.toNat) →
        s.lookup a = (.direct, 0)))

/-- A watch unit hits a cycle when some field is enabled and every enabled field matches; the strongest
action among the units that hit is the outcome, and only FREEZE passes a trigger on. -/
def Obligations.WatchMatching : Prop :=
  (∀ (w : WatchSettings) (c : WatchCapture), w.hits c = true ↔
    w.enables ≠ 0 ∧
    (w.enables.getLsbD 0 = true → w.low.toNat ≤ c.addr.toNat ∧ c.addr.toNat ≤ w.high.toNat) ∧
    (w.enables.getLsbD 1 = true → w.direction = c.direction) ∧
    (w.enables.getLsbD 2 = true →
      (w.mask = 0 ∨ ∃ i < 16, w.mask.getLsbD i = true ∧
        (if i < 8 then c.lanes.hasLower else c.lanes.hasUpper) = true) ∧
      (∀ i < 16, w.mask.getLsbD i = true →
        (if i < 8 then c.lanes.hasLower else c.lanes.hasUpper) = true →
        c.data.getLsbD i = w.value.getLsbD i)) ∧
    (w.enables.getLsbD 3 = true → w.cls = c.cls)) ∧
  (∀ (held : Four WatchSettings) (c : WatchCapture),
    (watchOutcome held c = none ↔ ∀ n : Fin 4, (held.get n).hits c = false) ∧
    (∀ n : Fin 4, (held.get n).hits c = true → ∃ o, watchOutcome held c = some o ∧
      (o = .note → (held.get n).action = .note) ∧
      (o = .refuse → (held.get n).action ≠ .freeze)) ∧
    (∀ o, watchOutcome held c = some o → ∃ n : Fin 4, (held.get n).hits c = true ∧
      (held.get n).action = o)) ∧
  (∀ (s : State) (a : Addr) (d : Direction) (lanes : Lanes) (w : Word) (c : RegionClass),
    s.observe a d lanes w c =
      { addr := a, direction := d, lanes := lanes,
        data := joinBytes (if lanes.hasUpper then hiByte w else 0)
          (if lanes.hasLower then loByte w else 0),
        cls := c, group := s.intake.group, tick := s.time.tick } ∧
    (lanes.hasUpper = true ↔ lanes ≠ .lower) ∧ (lanes.hasLower = true ↔ lanes ≠ .upper) ∧
    (∀ n : Fin 4, s.watchSettings.get n = (s.watch.get n).settings) ∧
    (∀ o, watchRefuses o = true ↔ o = some .refuse ∨ o = some .freeze) ∧
    watchTrigger none s = s ∧ watchTrigger (some .note) s = s ∧ watchTrigger (some .refuse) s = s ∧
    watchTrigger (some .freeze) s = trigger .watch s.settings.watchAction s)

/-- A read of a CLOSED address is refused with reason CLASS, compared with FFFFh as its word, and a FREEZE
outcome is then passed on as a trigger. -/
def Obligations.ClosedReadRefused : Prop :=
  ∀ (s : State) (a : Addr), s.up.cycle = none → (s.lookup (s.cycleAddr a)).1 = .closed →
    ∃ r, exec (.upstreamRead a) s = .next (watchTrigger
        (watchOutcome s.watchSettings (s.observe (s.cycleAddr a) .read .both 0xFFFF#16 .closed)) r) ∧
      s.Refuses r (s.cycleAddr a) .read .cls (s.lookup (s.cycleAddr a)).2 ∧
      s.Compares r s.watchSettings (s.observe (s.cycleAddr a) .read .both 0xFFFF#16 .closed) ∧
      s.FlagsGain r (fun e => decide (e = .refused) ||
        hitEvent s.watchSettings (s.observe (s.cycleAddr a) .read .both 0xFFFF#16 .closed) e)

/-- Every other read becomes the current cycle with UWAIT asserted, under its class, its region tag and
the watch settings in force; a JOURNALED read that arrives during a rollback is held at once and its wait
timer starts, which is the model's reading of when that hold begins (log 19). That UBERR and the word of an
earlier cycle are gone from the pins then is the model's form of them (log 21). -/
def Obligations.ReadAwaitsPort : Prop :=
  ∀ (s : State) (a : Addr) (waits : Bool), s.up.cycle = none → s.gate.opState ≠ .recovering →
    s.gate.opState ≠ .formatting → (s.lookup (s.cycleAddr a)).1 ≠ .closed →
    waits = (decide ((s.lookup (s.cycleAddr a)).1 = .journaled) && s.rollingBack) →
    exec (.upstreamRead a) s = .next { s with up :=
      { cycle := some { addr := s.cycleAddr a, direction := .read, lanes := .both, data := 0,
                        cls := (s.lookup (s.cycleAddr a)).1, tag := (s.lookup (s.cycleAddr a)).2,
                        watch := s.watchSettings, phase := if waits then .readHeld else .reading }
        timer := if waits then some { elapsed := 0, limit := s.settings.waitLimit.toNat } else none
        uwait := true, uberr := false, readData := none } }

/-- A write that arrives is refused by class, then by the watch outcome, then by the gate; the units
compare it in each case, and a FREEZE outcome is passed on as a trigger, also of a write refused for its
class. -/
def Obligations.WriteRefused : Prop :=
  ∀ (s : State) (a : Addr) (w : Word) (u l : Bool) (lanes : Lanes) (cls : RegionClass) (tag : Word)
    (seen : WatchCapture) (o : Option WatchAction),
    s.up.cycle = none → s.gate.opState ≠ .recovering → s.gate.opState ≠ .formatting →
    lanesOf u l = some lanes → s.lookup (s.cycleAddr a) = (cls, tag) →
    seen = s.observe (s.cycleAddr a) .write lanes w cls → o = watchOutcome s.watchSettings seen →
    (cls = .reserved ∨ cls = .guarded ∨ cls = .closed →
      ∃ r, exec (.upstreamWrite a w u l) s = .next (watchTrigger o r) ∧
        s.Refuses r (s.cycleAddr a) .write .cls tag ∧ s.Compares r s.watchSettings seen ∧
        s.FlagsGain r (fun e => decide (e = .refused) || hitEvent s.watchSettings seen e)) ∧
    (cls = .journaled ∨ cls = .direct → o = some .refuse ∨ o = some .freeze →
      ∃ r, exec (.upstreamWrite a w u l) s = .next (watchTrigger o r) ∧
        s.Refuses r (s.cycleAddr a) .write .watch tag ∧ s.Compares r s.watchSettings seen ∧
        s.FlagsGain r (fun e => decide (e = .refused) || hitEvent s.watchSettings seen e)) ∧
    (o = none ∨ o = some .note →
      (cls = .journaled ∧ (s.gate.opState = .frozen ∨ s.intake.group = 0xFFFFFFFF#32)) ∨
        (cls = .direct ∧ s.gate.opState = .frozen ∧ s.settings.scope = .allWrites) →
      ∃ r, exec (.upstreamWrite a w u l) s = .next r ∧
        s.Refuses r (s.cycleAddr a) .write .gate tag ∧ s.Compares r s.watchSettings seen ∧
        s.FlagsGain r (fun e => decide (e = .refused) || hitEvent s.watchSettings seen e))

/-- A write that nothing refuses is accepted at once when the queue has a free entry, and otherwise waits
with UWAIT asserted and its wait timer running. That it waits too while a pending commit is held is the
model's choice (log 13), and that UBERR and the word of an earlier cycle are gone from the pins then is its
form of them (log 21). The lane mask is that of the strobes, and the line of an address is the address with
its three lowest bits cleared. -/
def Obligations.WriteAcceptedOrWaits : Prop :=
  lanesOf true true = some .both ∧ lanesOf true false = some .upper ∧
  lanesOf false true = some .lower ∧ lanesOf false false = none ∧
  (∀ a : Addr, (lineOf a).toNat = 8 * (a.toNat / 8)) ∧
  ∀ (s : State) (a : Addr) (w : Word) (u l : Bool) (lanes : Lanes) (cls : RegionClass) (tag : Word)
    (seen : WatchCapture),
    s.up.cycle = none → s.gate.opState ≠ .recovering → s.gate.opState ≠ .formatting →
    lanesOf u l = some lanes → s.lookup (s.cycleAddr a) = (cls, tag) →
    seen = s.observe (s.cycleAddr a) .write lanes w cls →
    watchOutcome s.watchSettings seen = none ∨ watchOutcome s.watchSettings seen = some .note →
    (cls = .journaled ∧ s.gate.opState ≠ .frozen ∧ s.intake.group ≠ 0xFFFFFFFF#32) ∨
      (cls = .direct ∧ (s.gate.opState ≠ .frozen ∨ s.settings.scope = .journaledOnly)) →
    (s.queue.entries.length < 16 ∧ s.intake.pendingCommit = false →
      ∃ t, exec (.upstreamWrite a w u l) s = .next t ∧ s.Accepts t (s.cycleAddr a) w lanes cls ∧
        t.up.uberr = false ∧ s.Compares t s.watchSettings seen ∧
        s.FlagsGain t (hitEvent s.watchSettings seen)) ∧
    (16 ≤ s.queue.entries.length ∨ s.intake.pendingCommit = true →
      ∃ t, exec (.upstreamWrite a w u l) s = .next t ∧
        t.up = { cycle := some { addr := s.cycleAddr a, direction := .write, lanes := lanes,
                                 data := w, cls := cls, tag := tag, watch := s.watchSettings,
                                 phase := .waitingWrite }
                 timer := some { elapsed := 0, limit := s.settings.waitLimit.toNat }
                 uwait := true, uberr := false, readData := none } ∧
        s.Compares t s.watchSettings seen ∧ s.FlagsGain t (hitEvent s.watchSettings seen) ∧
        t.events.counters = s.events.counters ∧ t.events.refusal = s.events.refusal ∧ s.SameWork t)

/-! ### Upstream cycles: waiting -/

/-- A waiting write claims a free entry: it is looked up and gate-checked again, and is refused or
accepted; the watch units do not compare it again. With no waiting write, no free entry, or a pending commit
to claim it first, nothing is claimed (log 3); a claim leaves nothing to claim. -/
def Obligations.WaitingWriteClaims : Prop :=
  (∀ s : State, (∀ c, s.up.cycle = some c → c.phase ≠ .waitingWrite) ∨
      16 ≤ s.queue.entries.length ∨ s.intake.pendingCommit = true →
    exec .waitingWriteClaim s = .next s) ∧
  (∀ s u : State, exec .waitingWriteClaim s = .next u → exec .waitingWriteClaim u = .next u) ∧
  ∀ (s : State) (c : Cycle) (cls : RegionClass) (tag : Word),
    s.up.cycle = some c → c.phase = .waitingWrite → s.queue.entries.length < 16 →
    s.intake.pendingCommit = false → s.gate.opState ≠ .recovering → s.gate.opState ≠ .formatting →
    s.lookup c.addr = (cls, tag) →
    (cls = .reserved ∨ cls = .guarded ∨ cls = .closed →
      ∃ t, exec .waitingWriteClaim s = .next t ∧ s.Refuses t c.addr .write .cls tag ∧
        t.watch = s.watch ∧ s.FlagsGain t (fun e => decide (e = .refused))) ∧
    ((cls = .journaled ∧ (s.gate.opState = .frozen ∨ s.intake.group = 0xFFFFFFFF#32)) ∨
        (cls = .direct ∧ s.gate.opState = .frozen ∧ s.settings.scope = .allWrites) →
      ∃ t, exec .waitingWriteClaim s = .next t ∧ s.Refuses t c.addr .write .gate tag ∧
        t.watch = s.watch ∧ s.FlagsGain t (fun e => decide (e = .refused))) ∧
    ((cls = .journaled ∧ s.gate.opState ≠ .frozen ∧ s.intake.group ≠ 0xFFFFFFFF#32) ∨
        (cls = .direct ∧ (s.gate.opState ≠ .frozen ∨ s.settings.scope = .journaledOnly)) →
      ∃ t, exec .waitingWriteClaim s = .next t ∧ s.Accepts t c.addr c.data c.lanes cls ∧
        t.up.uberr = s.up.uberr ∧ t.watch = s.watch ∧ t.events = s.events)

/-- A hold that expires ends in a refusal with reason TIMEOUT: a waiting write is dropped without a
comparison, a held read is compared with FFFFh and a FREEZE outcome passed on. That WAIT_LIMIT_EXPIRY stands
for its moment, whatever the wait timer counts, is the model's choice (log 2). -/
def Obligations.HoldExpires : Prop :=
  ∀ (s : State) (c : Cycle), s.up.cycle = some c →
    (c.phase = .waitingWrite →
      ∃ t, exec .waitLimitExpiry s = .next t ∧ s.Refuses t c.addr .write .timeout c.tag ∧
        t.watch = s.watch ∧ s.FlagsGain t (fun e => decide (e = .waitOut))) ∧
    (c.phase = .readHeld → ∀ seen, seen = s.observe c.addr .read .both 0xFFFF#16 c.cls →
      ∃ r, exec .waitLimitExpiry s = .next (watchTrigger (watchOutcome c.watch seen) r) ∧
        s.Refuses r c.addr .read .timeout c.tag ∧ s.Compares r c.watch seen ∧
        s.FlagsGain r (fun e => decide (e = .waitOut) || hitEvent c.watch seen e))

/-! ### Reads through the port -/

/-- The word that a read returns, lane by lane: the newest queued write that carries the lane of that
word supplies its byte, and memory the byte of a lane that none carries; the queue does not change. The end
of the cycle and the comparison beside it hold in every state, also for a read still in flight when a FORMAT
is accepted, which is the model's choice (log 38). -/
def Obligations.ForwardingLaneByLane : Prop :=
  ∀ (s : State) (c : Cycle) (a : Access) (seen : WatchCapture) (w : Word),
    s.up.cycle = some c → s.port.access = some (.upstream, a) → a.write = none →
    w = s.readWord c (s.mem.word (a.addr % s.top)) →
    seen = s.observe c.addr .read .both w c.cls →
    watchRefuses (watchOutcome c.watch seen) = false →
    (∃ t, exec (.accessComplete none) s = .next t ∧ t.up.readData = some w ∧ t.up.cycle = none ∧
      t.up.timer = none ∧ t.up.uwait = false ∧ t.up.uberr = s.up.uberr ∧ t.port.access = none ∧
      t.port.streak = s.port.streak ∧ s.Compares t c.watch seen ∧
      s.FlagsGain t (hitEvent c.watch seen) ∧ t.events.counters = s.events.counters ∧
      t = { s with up := t.up, port := t.port, watch := t.watch, events := t.events }) ∧
    (c.cls = .journaled ∨ c.cls = .direct →
      (∀ older e newer, s.queue.entries = older ++ .write e :: newer → e.addr = c.addr →
        e.lanes ≠ .lower →
        (∀ e', .write e' ∈ newer → e'.addr = c.addr → e'.lanes = .lower) →
        hiByte w = hiByte e.data) ∧
      (∀ older e newer, s.queue.entries = older ++ .write e :: newer → e.addr = c.addr →
        e.lanes ≠ .upper →
        (∀ e', .write e' ∈ newer → e'.addr = c.addr → e'.lanes = .upper) →
        loByte w = loByte e.data) ∧
      ((∀ e, .write e ∈ s.queue.entries → e.addr = c.addr → e.lanes = .lower) →
        hiByte w = s.mem.byte (2 * (a.addr % s.top))) ∧
      ((∀ e, .write e ∈ s.queue.entries → e.addr = c.addr → e.lanes = .upper) →
        loByte w = s.mem.byte (2 * (a.addr % s.top) + 1))) ∧
    (c.cls = .guarded ∨ c.cls = .reserved → w = s.mem.word (a.addr % s.top))

/-- A read that the watch units refuse when its word is there ends with FFFFh, UBERR and reason WATCH, and
a FREEZE outcome is passed on. That a read still in flight when a FORMAT is accepted ends in the same way is
the model's choice (log 38). -/
def Obligations.WatchRefusesRead : Prop :=
  ∀ (s : State) (c : Cycle) (a : Access) (seen : WatchCapture) (answer : Option Word),
    s.up.cycle = some c → s.port.access = some (.upstream, a) → a.write = none →
    seen = s.observe c.addr .read .both (s.readWord c (s.readAnswer a answer)) c.cls →
    watchOutcome c.watch seen = some .refuse ∨ watchOutcome c.watch seen = some .freeze →
    ∃ r, exec (.accessComplete answer) s = .next (watchTrigger (watchOutcome c.watch seen) r) ∧
      { s with port := { s.port with access := none } }.Refuses r c.addr .read .watch c.tag ∧
      s.Compares r c.watch seen ∧
      s.FlagsGain r (fun e => decide (e = .refused) || hitEvent c.watch seen e)

/-- The free port, behind the beginning of the engine's next piece of work, which an IDLE engine makes at once
and the model makes with the grant where it is still to be made (log 41): a JOURNALED read is held instead of
granted while the engine rolls back; with one claim it is granted and the streak returns to 0; with two the
read is granted below the streak limit and the streak rises, and at the limit the engine is granted and the
streak returns to 0. That such a read is held at every grant of a rollback, also at the limit, is the model's
reading (log 19), and that a grant with no claim or no free port grants nothing is too (log 3). -/
def Obligations.ArbiterGrants : Prop :=
  ∀ s : State, (s.rollingBack = true ↔ ∃ r, s.engine.work = .rollingBack r) ∧
    (s.port.access ≠ none → exec .arbiterGrant s = .next s) ∧
    (∀ u v, s.port.access = none → exec .liveRollbackBegin s = .next u → exec .takeHead u = .next v →
      exec .arbiterGrant s = exec .arbiterGrant v ∧ v.port = s.port ∧
      exec .liveRollbackBegin v = .next v ∧ exec .takeHead v = .next v) ∧
    (s.port.access = none → exec .liveRollbackBegin s = .next s → exec .takeHead s = .next s →
      (∀ c, s.up.cycle = some c → c.phase = .reading → c.cls = .journaled → s.rollingBack = true →
        ∃ t, exec .arbiterGrant s = .next t ∧
          t.up = { s.up with cycle := some { c with phase := .readHeld }
                             timer := some { elapsed := 0, limit := s.settings.waitLimit.toNat } } ∧
          (∀ e, s.engineAccess = some e → t.port = { access := some (.engine, e), streak := 0 }) ∧
          (s.engineAccess = none → t.port = s.port) ∧ t = { s with up := t.up, port := t.port }) ∧
      (∀ c, s.up.cycle = some c → c.phase = .reading → c.cls ≠ .journaled ∨ s.rollingBack = false →
        (s.engineAccess = none ∨ s.port.streak < s.settings.streakLimit.toNat →
          exec .arbiterGrant s = .next { s with port :=
            { access := some (.upstream, { addr := c.addr.toNat, write := none })
              streak := if s.engineAccess = none then 0 else s.port.streak + 1 } }) ∧
        (∀ e, s.engineAccess = some e → s.settings.streakLimit.toNat ≤ s.port.streak →
          exec .arbiterGrant s = .next { s with port :=
            { access := some (.engine, e), streak := 0 } })) ∧
      ((∀ c, s.up.cycle = some c → c.phase ≠ .reading) →
        (∀ e, s.engineAccess = some e →
          exec .arbiterGrant s = .next { s with port :=
            { access := some (.engine, e), streak := 0 } }) ∧
        (s.engineAccess = none → exec .arbiterGrant s = .next s)))

/-! ### The Store Engine: drains -/

/-- The engine takes the head when it is IDLE, no rollback can begin and the head is no SEAL token of the
abandoned group, and the first stage is that of the entry's kind; otherwise TAKE_HEAD changes nothing
(log 3). -/
def Obligations.TakeHead : Prop :=
  (∀ s : State, s.headBegun = true ↔ ∃ d, s.engine.work = .draining d) ∧
  (∀ s : State, s.queue.entries = [] → exec .takeHead s = .next s) ∧
  ∀ (s : State) (e : Entry) (q : List Entry), s.queue.entries = e :: q →
    (s.engine.work = .idle → s.gate.order = none ∨ s.startCondition = false →
      (∀ g sw, e = .sealToken g sw → s.engine.abandoned ≠ some g) →
      exec .takeHead s = .next { s with engine := { s.engine with work := .draining (match e with
        | .write w => if w.mark.any (fun m => m.copyFirst) then .copy [] else .apply
        | .sealToken _ sw => .anchor
            { base := 2 ^ (18 + s.straps.msize.toNat) - 32 + 16 * ((s.engine.closed + 1).toNat % 2)
              words := (s.sealedAnchor sw).words, phase := .writing 0 }
        | .tableToken _ => .tableRead [] []) } }) ∧
    (s.engine.work ≠ .idle ∨ (s.gate.order ≠ none ∧ s.startCondition = true) ∨
        (∃ g sw, e = .sealToken g sw ∧ s.engine.abandoned = some g) →
      exec .takeHead s = .next s)

/-- A run of single-word writes goes on in ascending order; after its last word VERIFY decides whether the
words are read back, and the last read decides whether any differed. Each run of a drain, a rollback,
a recovery and a Format goes on so. -/
def Obligations.RunsOfWrites : Prop :=
  (∀ (b : Burst) (v : Bool) (x : Word),
    (∀ n, b.phase = .writing n →
      b.access = { addr := b.base + n, write := some (b.words.getD n 0, .both) } ∧
      (n + 1 < b.words.length → b.advance v x = .more { b with phase := .writing (n + 1) }) ∧
      (b.words.length ≤ n + 1 → v = true →
        b.advance v x = .more { b with phase := .checking 0 false }) ∧
      (b.words.length ≤ n + 1 → v = false → b.advance v x = .ended false)) ∧
    (∀ n d, b.phase = .checking n d → b.access = { addr := b.base + n, write := none } ∧
      (n + 1 < b.words.length → b.advance v x = .more { b with
        phase := .checking (n + 1) (d || decide (x ≠ b.words.getD n 0)) }) ∧
      (b.words.length ≤ n + 1 →
        b.advance v x = .ended (d || decide (x ≠ b.words.getD n 0))))) ∧
  (∀ (s : State) (a : Access) (answer : Option Word) (w : Burst → Work) (v : Bool) (b b' : Burst),
    ((w = fun b => .draining (.record b)) ∧ v = s.settings.verify) ∨
      ((w = fun b => .draining (.anchor b)) ∧ v = s.settings.verify) ∨
      (∃ r : Rollback, (w = fun b => .rollingBack { r with phase := .retract b }) ∧
        v = s.settings.verify) ∨
      (∃ (r : Rollback) (j : Nat) (c : Word),
        (w = fun b => .rollingBack { r with phase := .restore j c b }) ∧ v = s.settings.verify) ∨
      (∃ (r : Rollback) (o : Option Nat),
        (w = fun b => .rollingBack { r with phase := .void o b }) ∧ v = s.settings.verify) ∨
      (∃ (r : Recovery) (j : Nat),
        (w = fun b => .recovering { r with phase := .restore j b }) ∧ v = false) ∨
      (∃ r : Recovery, (w = fun b => .recovering { r with phase := .void b }) ∧ v = false) ∨
      (∃ f : Format, (w = fun b => .formatting { f with phase := .anchor b }) ∧
        v = s.settings.verify) ∨
      (∃ f : Format, (w = fun b => .formatting { f with phase := .retract b }) ∧ v = false) →
    s.engine.work = w b →
    s.readAnswer a none = s.mem.word (a.addr % s.top) ∧ (∀ x, s.readAnswer a (some x) = x) ∧
    s.engineAccess = some b.access ∧
    (s.port.access = some (.engine, a) → b.advance v (s.readAnswer a answer) = .more b' →
      exec (.accessComplete answer) s = .next { s with
        mem := s.memAfter a answer, port := { s.port with access := none }
        engine := { s.engine with work := w b' } }))

/-- APPLY makes one word write of the entry's lanes, and its completion ends the drain: the entry leaves
the queue and the engine is IDLE. -/
def Obligations.ApplyCompletes : Prop :=
  ∀ (s : State) (w : WriteEntry) (q : List Entry), s.engine.work = .draining .apply →
    s.queue.entries = .write w :: q →
    s.engineAccess = some { addr := w.addr.toNat, write := some (w.data, w.lanes) } ∧
    (s.port.access = some (.engine, { addr := w.addr.toNat, write := some (w.data, w.lanes) }) →
      exec (.accessComplete none) s = .next { s with
        mem := s.mem.writeWord (w.addr.toNat % s.top) w.data w.lanes
        port := { s.port with access := none }, queue := { s.queue with entries := q }
        engine := { s.engine with work := .idle } })

/-- COPY reads the eight words of the line and RECORD then writes the record of group D with ordinal k
into slot k, unless the journal is full; a record counted raises k, sets the chain value and counts a
re-journal note. -/
def Obligations.RecordStages : Prop :=
  ∀ (s : State) (w : WriteEntry) (q : List Entry) (a : Access) (x : Word),
    s.queue.entries = .write w :: q → s.port.access = some (.engine, a) →
    (∀ got, s.engine.work = .draining (.copy got) → a.write = none →
      x = s.mem.word (a.addr % s.top) →
      s.engineAccess = some { addr := (lineOf w.addr).toNat + got.length, write := none } ∧
      (got.length < 7 → exec (.accessComplete none) s = .next { s with
        port := { s.port with access := none }
        engine := { s.engine with work := .draining (.copy (got ++ [x])) } }) ∧
      (got.length = 7 → s.engine.count ≠ s.engine.durable.slotCount →
        exec (.accessComplete none) s = .next { s with
          port := { s.port with access := none }
          engine := { s.engine with work := .draining (.record {
              base := s.engine.durable.windowBase.toNat + 16 * s.engine.count.toNat
              words := recordWords (s.engine.closed + 1) s.engine.count
                ((lineOf w.addr).zeroExtend 32) (got ++ [x]) s.engine.chain
              phase := .writing 0 }) } })) ∧
    (∀ b answer, s.engine.work = .draining (.record b) →
      b.advance s.settings.verify (s.readAnswer a answer) = .ended false →
      exec (.accessComplete answer) s = .next { s with
        mem := s.memAfter a answer, port := { s.port with access := none }
        engine := { s.engine with count := s.engine.count + 1, chain := b.words.getD 15 0
                                  work := .draining .apply }
        events := if w.mark.any (fun m => m.note) then { s.events with counters := {
            s.events.counters with rejournaled := satInc s.events.counters.rejournaled } }
          else s.events })

/-- Journal full, a verify failure on a record and one on an anchor: every JOURNALED WRITE and SEAL token
goes and is counted, Intake starts again at group D with its count stopped at 0, a switch that a token
carried is undone, the part freezes with the cause and level ROLLBACK, no order is left, and the rollback of
D has begun, with the retraction of a failed anchor first; with neither retraction nor record it has ended
EMPTY, and its report has taken the counts. That it ends in the same taking is the model's reading (log
20). -/
def Obligations.JournalFaults : Prop :=
  (∀ (x : WriteEntry) (g : GroupNo) (sw : Option TableRef) (p : Long),
    (Entry.write x).isJournaled = x.mark.isSome ∧ (Entry.write x).isSeal = false ∧
    (Entry.write x).carriesSwitch = false ∧ (Entry.sealToken g sw).isJournaled = false ∧
    (Entry.sealToken g sw).isSeal = true ∧ (Entry.sealToken g sw).carriesSwitch = sw.isSome ∧
    (Entry.tableToken p).isJournaled = false ∧ (Entry.tableToken p).isSeal = false ∧
    (Entry.tableToken p).carriesSwitch = false) ∧
  ∀ (s : State) (a : Access) (answer : Option Word) (cause : Cause) (o : Origin) (retract : Bool)
    (writes tokens : Word),
    s.port.access = some (.engine, a) →
    s.gate.opState = .running ∨ s.gate.opState = .frozen →
    (∃ got, s.engine.work = .draining (.copy got) ∧ got.length = 7 ∧
        s.engine.count = s.engine.durable.slotCount ∧ cause = .jfull ∧ o = .jfull ∧
        retract = false) ∨
      (∃ b, s.engine.work = .draining (.record b) ∧
        b.advance s.settings.verify (s.readAnswer a answer) = .ended true ∧ cause = .verify ∧
        o = .verify ∧ retract = false) ∨
      (∃ b, s.engine.work = .draining (.anchor b) ∧
        b.advance s.settings.verify (s.readAnswer a answer) = .ended true ∧ cause = .verify ∧
        o = .verify ∧ retract = true) →
    writes = satAdd s.queue.discardedWrites (s.queue.entries.filter (fun e => e.isJournaled)).length →
    tokens = satAdd s.queue.discardedTokens (s.queue.entries.filter (fun e => e.isSeal)).length →
    ∃ t, exec (.accessComplete answer) s = .next t ∧ t.mem = s.memAfter a answer ∧
      t.port.access = none ∧
      t.queue.entries = s.queue.entries.filter (fun e => !e.isJournaled && !e.isSeal) ∧
      t.intake = { s.intake with
        group := s.engine.closed + 1, dirty := false, filter := [], removed := []
        pendingCommit := false, auto := { count := 0, running := false, due := false } } ∧
      t.gate.opState = .frozen ∧ t.gate.causes = s.gate.causes.add cause ∧
      t.gate.level = .rollback ∧ t.gate.order = none ∧
      t.engine.closed = s.engine.closed ∧ t.engine.count = s.engine.count ∧
      t.engine.chain = s.engine.chain ∧ t.engine.durable = s.engine.durable ∧
      ((∀ e ∈ s.queue.entries, e.carriesSwitch = false) → t.region = s.region) ∧
      (∀ x, (∃ e ∈ s.queue.entries, e.carriesSwitch = true) → s.region.state = .none →
        s.region.active = some x → t.region = { s.region with
          active := s.region.retiring, retiring := none, state := .ready x }) ∧
      (∀ p, (∃ e ∈ s.queue.entries, e.carriesSwitch = true) → s.region.state = .pending p →
        t.region = { s.region with active := s.region.retiring, retiring := none }) ∧
      (retract = true ∨ s.engine.count ≠ 0 →
        t.queue.discardedWrites = writes ∧ t.queue.discardedTokens = tokens ∧
        t.events.restore = s.events.restore) ∧
      (retract = true → t.engine.abandoned = some (s.engine.closed + 1) ∧
        t.engine.work = .rollingBack
          { origin := o, group := s.engine.closed + 1, count := s.engine.count, restored := 0
            mismatches := 0
            phase := .retract
              { base := 2 ^ (18 + s.straps.msize.toNat) - 32 +
                  16 * ((s.engine.closed + 1).toNat % 2)
                words := List.replicate 16 0, phase := .writing 0 } }) ∧
      (retract = false → s.engine.count ≠ 0 →
        t.engine.abandoned = some (s.engine.closed + 1) ∧
        t.engine.work = .rollingBack
          { origin := o, group := s.engine.closed + 1, count := s.engine.count, restored := 0
            mismatches := 0, phase := .readSlot (s.engine.count.toNat - 1) s.engine.chain [] }) ∧
      (retract = false → s.engine.count = 0 → t.engine.abandoned = none ∧
        t.engine.work = .idle ∧ t.queue.discardedWrites = 0 ∧ t.queue.discardedTokens = 0 ∧
        t.events.restore =
          { origin := o, outcome := .empty, examined := some (s.engine.closed + 1)
            closed := s.engine.closed, found := 0, restored := 0, stopSlot := none
            stopReason := none, mismatches := 0, anchorIndex := none, classes := none
            tornAnchor := false, discardedWrites := writes, discardedTokens := tokens
            tick := s.time.tick })

/-- A completed seal closes group D, clears k and the chain value, takes the table of a switch into the
durable configuration, releases the retiring area and cause TABLE, removes the token, raises SEALED and
counts it; at the last group it is followed by the trigger with cause EXHAUSTED. -/
def Obligations.SealCompletes : Prop :=
  ∀ (s : State) (a : Access) (answer : Option Word) (b : Burst) (g : GroupNo) (sw : Option TableRef)
    (q : List Entry),
    s.port.access = some (.engine, a) → s.engine.work = .draining (.anchor b) →
    b.advance s.settings.verify (s.readAnswer a answer) = .ended false →
    s.queue.entries = .sealToken g sw :: q →
    ∃ r, exec (.accessComplete answer) s = .next
        (if s.engine.closed + 1 = 0xFFFFFFFE#32 then trigger .exhausted .none r else r) ∧
      r.engine = { work := .idle, closed := s.engine.closed + 1, count := 0, chain := 0
                   durable := match sw with
                     | some x => { s.engine.durable with tableBase := x.base, tableCount := x.count }
                     | none => s.engine.durable
                   abandoned := s.engine.abandoned } ∧
      r.queue = { s.queue with entries := q } ∧
      r.region = (match sw with
        | some _ => { s.region with retiring := none }
        | none => s.region) ∧
      r.gate = (match sw with
        | some _ => { s.gate with causes := { s.gate.causes with table := false } }
        | none => s.gate) ∧
      s.FlagsGain r (fun e => decide (e = .groupSealed)) ∧
      r.events.counters =
        { s.events.counters with sealedGroups := satInc s.events.counters.sealedGroups } ∧
      r = { s with mem := s.memAfter a answer, port := { s.port with access := none }
                   engine := r.engine, queue := r.queue, region := r.region, gate := r.gate
                   events := { s.events with flags := r.events.flags, attn := r.events.attn
                                             pulse := r.events.pulse
                                             counters := r.events.counters } }

/-- The checks of a descriptor, in their order and with their errors, and of a table as a whole. A
descriptor is kept exactly when it passes every check; a table whose last descriptor carries END and that
passes the checks as a whole becomes READY, any other is dropped with its error and index; either way the
result is filled, the event raised, and the token leaves the queue. That a rejected descriptor is among
those counted as read is the model's reading (log 23). -/
def Obligations.TableReads : Prop :=
  (∀ s : State, s.anchorBlock = { first := 2 ^ (18 + s.straps.msize.toNat) - 32
                                  last := 2 ^ (18 + s.straps.msize.toNat) - 1 } ∧
    s.window = if s.engine.durable.slotCount = 0 then none else some
      { first := s.engine.durable.windowBase.toNat
        last := s.engine.durable.windowBase.toNat + 16 * s.engine.durable.slotCount.toNat - 1 }) ∧
  (∀ (s : State) (n : Nat) (prev : Option Descriptor) (ws : List Word) (d : Descriptor),
    s.checkDescriptor n prev ws = .inr d ↔
      (∀ x ∈ s.anchorBlock :: s.window.toList, n + 7 < x.first ∨ x.last < n) ∧
      wordSum ws = 0xFFFF#16 ∧
      (ws.getD 4 0 = 0 ∧ d.cls = .direct ∨ ws.getD 4 0 = 1 ∧ d.cls = .journaled ∨
        ws.getD 4 0 = 2 ∧ d.cls = .guarded ∨ ws.getD 4 0 = 3 ∧ d.cls = .closed) ∧
      d.first = joinWords (ws.getD 0 0) (ws.getD 1 0) ∧
      d.last = joinWords (ws.getD 2 0) (ws.getD 3 0) ∧ d.flags = ws.getD 5 0 ∧
      d.tag = ws.getD 6 0 ∧ d.first.toNat ≤ d.last.toNat ∧ d.last.toNat < s.top ∧
      (∀ p, prev = some p → p.last.toNat < d.first.toNat) ∧
      (d.cls = .journaled → d.first.toNat % 8 = 0 ∧ (d.last.toNat + 1) % 8 = 0) ∧
      (∀ x ∈ s.anchorBlock :: s.window.toList,
        d.last.toNat < x.first ∨ x.last < d.first.toNat)) ∧
  (∀ (s : State) (n : Nat) (prev : Option Descriptor) (ws : List Word) (first last : Nat),
    first = (joinWords (ws.getD 0 0) (ws.getD 1 0)).toNat →
    last = (joinWords (ws.getD 2 0) (ws.getD 3 0)).toNat →
    ((∃ x ∈ s.anchorBlock :: s.window.toList, x.first ≤ n + 7 ∧ n ≤ x.last) →
      s.checkDescriptor n prev ws = .inl .reserved) ∧
    ((∀ x ∈ s.anchorBlock :: s.window.toList, n + 7 < x.first ∨ x.last < n) →
      (wordSum ws ≠ 0xFFFF#16 → s.checkDescriptor n prev ws = .inl .check) ∧
      (wordSum ws = 0xFFFF#16 →
        (3 < (ws.getD 4 0).toNat → s.checkDescriptor n prev ws = .inl .cls) ∧
        ((ws.getD 4 0).toNat ≤ 3 →
          (last < first ∨ s.top ≤ last → s.checkDescriptor n prev ws = .inl .range) ∧
          (first ≤ last → last < s.top →
            (∀ p, prev = some p → first ≤ p.last.toNat →
              s.checkDescriptor n prev ws = .inl .order) ∧
            ((∀ p, prev = some p → p.last.toNat < first) →
              (ws.getD 4 0 = 1 → first % 8 ≠ 0 ∨ (last + 1) % 8 ≠ 0 →
                s.checkDescriptor n prev ws = .inl .align) ∧
              (ws.getD 4 0 ≠ 1 ∨ (first % 8 = 0 ∧ (last + 1) % 8 = 0) →
                (∃ x ∈ s.anchorBlock :: s.window.toList, x.first ≤ last ∧ first ≤ x.last) →
                s.checkDescriptor n prev ws = .inl .reserved))))))) ∧
  (∀ (s : State) (x : Table) (fin : Nat) (locks : Bool),
    fin = x.base.toNat + 8 * x.descs.length - 1 →
    (∀ before d after, x.descs = before ++ d :: after →
      x.base.toNat ≤ d.last.toNat → d.first.toNat ≤ fin →
      (∀ e ∈ before, e.last.toNat < x.base.toNat ∨ fin < e.first.toNat) →
      s.checkWhole x locks = some (.reserved, before.length)) ∧
    ((∀ e ∈ x.descs, e.last.toNat < x.base.toNat ∨ fin < e.first.toNat) →
      s.checkWhole x false = none ∧
      (∀ y before l after, s.region.active = some y → y.descs = before ++ l :: after →
        l.flags.getLsbD 1 = true → ¬ x.KeepsLock l →
        (∀ m ∈ before, m.flags.getLsbD 1 = true → x.KeepsLock m) →
        s.checkWhole x true = some (.lock, before.length)) ∧
      ((∀ y, s.region.active = some y → ∀ l ∈ y.descs, l.flags.getLsbD 1 = true → x.KeepsLock l) →
        s.checkWhole x true = none))) ∧
  (∀ (s : State) (a : Access) (base : Long) (q : List Entry) (got : List Word)
    (kept : List Descriptor) (x : Word),
    s.port.access = some (.engine, a) → a.write = none → x = s.mem.word (a.addr % s.top) →
    s.queue.entries = .tableToken base :: q → s.engine.work = .draining (.tableRead got kept) →
    s.engineAccess =
      some { addr := base.toNat + 8 * kept.length + got.length, write := none } ∧
    (got.length < 7 → exec (.accessComplete none) s = .next { s with
      port := { s.port with access := none }
      engine := { s.engine with work := .draining (.tableRead (got ++ [x]) kept) } }) ∧
    (∀ e, got.length = 7 →
      s.checkDescriptor (base.toNat + 8 * kept.length) kept.getLast? (got ++ [x]) = .inl e →
      ∃ t, exec (.accessComplete none) s = .next t ∧ s.EndsTableRead t q .none .tableError
        { outcome := e, origin := .load, base := base, read := kept.length + 1
          index := kept.length, tick := s.time.tick }) ∧
    (∀ d, got.length = 7 →
      s.checkDescriptor (base.toNat + 8 * kept.length) kept.getLast? (got ++ [x]) = .inr d →
      (d.flags.getLsbD 0 = false → kept.length < 15 → exec (.accessComplete none) s = .next { s with
        port := { s.port with access := none }
        engine := { s.engine with work := .draining (.tableRead [] (kept ++ [d])) } }) ∧
      (d.flags.getLsbD 0 = false → kept.length = 15 →
        ∃ t, exec (.accessComplete none) s = .next t ∧ s.EndsTableRead t q .none .tableError
          { outcome := .noEnd, origin := .load, base := base, read := 16, index := 15
            tick := s.time.tick }) ∧
      (∀ e i, d.flags.getLsbD 0 = true →
        s.checkWhole { base := base, descs := kept ++ [d] } true = some (e, i) →
        ∃ t, exec (.accessComplete none) s = .next t ∧ s.EndsTableRead t q .none .tableError
          { outcome := e, origin := .load, base := base, read := kept.length + 1, index := i
            tick := s.time.tick }) ∧
      (d.flags.getLsbD 0 = true →
        s.checkWhole { base := base, descs := kept ++ [d] } true = none →
        ∃ t, exec (.accessComplete none) s = .next t ∧
          s.EndsTableRead t q (.ready { base := base, descs := kept ++ [d] }) .tableReady
            { outcome := .accepted, origin := .load, base := base, read := kept.length + 1
              index := 0, tick := s.time.tick })))

/-! ### Live rollback -/

/-- A live rollback begins when an order is held, the engine is IDLE and the start condition holds: the
order is withdrawn, D, k and the origin are fixed and the newest record is read; with k equal to 0 it ends
EMPTY at once, with its report, and a held read is released. Otherwise LIVE_ROLLBACK_BEGIN changes nothing
(log 3). -/
def Obligations.RollbackBegins : Prop :=
  ∀ s : State,
    (s.startCondition = true ↔ (∀ e ∈ s.queue.entries, e.isJournaled = false) ∧
      (∀ e ∈ s.queue.entries.tail, e.isSeal = false) ∧
      (∀ g sw q, s.queue.entries = .sealToken g sw :: q → s.engine.abandoned = some g)) ∧
    (s.gate.order = none ∨ s.engine.work ≠ .idle ∨ s.startCondition = false →
      exec .liveRollbackBegin s = .next s) ∧
    (∀ o, s.gate.order = some o → s.engine.work = .idle → s.startCondition = true →
      (s.engine.count ≠ 0 → exec .liveRollbackBegin s = .next { s with
        gate := { s.gate with order := none }
        engine := { s.engine with work := .rollingBack {
            origin := o, group := s.engine.closed + 1, count := s.engine.count, restored := 0
            mismatches := 0
            phase := .readSlot (s.engine.count.toNat - 1) s.engine.chain [] } } }) ∧
      (s.engine.count = 0 → ∃ t, exec .liveRollbackBegin s = .next t ∧
        t.engine = { s.engine with abandoned := none } ∧
        t.queue = { s.queue with discardedWrites := 0, discardedTokens := 0 } ∧
        t.events = { s.events with restore :=
          { origin := o, outcome := .empty, examined := some (s.engine.closed + 1)
            closed := s.engine.closed, found := 0, restored := 0, stopSlot := none
            stopReason := none, mismatches := 0, anchorIndex := none, classes := none
            tornAnchor := false, discardedWrites := s.queue.discardedWrites
            discardedTokens := s.queue.discardedTokens, tick := s.time.tick } } ∧
        t.up = (match s.up.cycle with
          | some c => if c.phase = .readHeld then
              { s.up with cycle := some { c with phase := .reading }, timer := none } else s.up
          | none => s.up) ∧
        t = { s with gate := { s.gate with order := none }, engine := t.engine, queue := t.queue
                     events := t.events, up := t.up }))

/-- The retraction of a failed anchor goes before the restores, and a difference in it counts as a mismatch;
with no record the rollback then ends EMPTY. Each slot is read word by word and restored exactly when it
belongs; after a restored line the next lower slot is read, whose check word must be the chain field just
read, and after slot 0, or a slot that does not belong, the VOIDED anchor of the group is written. -/
def Obligations.SlotsRestored : Prop :=
  ∀ (s : State) (a : Access) (r : Rollback),
    s.port.access = some (.engine, a) → s.engine.work = .rollingBack r →
    (∀ (b : Burst) (d : Bool) (answer : Option Word) (missed : Word), r.phase = .retract b →
      b.advance s.settings.verify (s.readAnswer a answer) = .ended d →
      missed = (if d then satInc r.mismatches else r.mismatches) →
      (r.count ≠ 0 → exec (.accessComplete answer) s = .next { s with
        mem := s.memAfter a answer, port := { s.port with access := none }
        engine := { s.engine with work := .rollingBack { r with
          mismatches := missed
          phase := .readSlot (r.count.toNat - 1) s.engine.chain [] } } }) ∧
      (r.count = 0 → ∃ t, exec (.accessComplete answer) s = .next t ∧
        t.engine = { s.engine with work := .idle, abandoned := none } ∧
        t.queue = { s.queue with discardedWrites := 0, discardedTokens := 0 } ∧
        t.events = { s.events with restore :=
          { origin := r.origin, outcome := .empty, examined := some r.group
            closed := s.engine.closed, found := 0, restored := r.restored, stopSlot := none
            stopReason := none, mismatches := missed, anchorIndex := none, classes := none
            tornAnchor := false, discardedWrites := s.queue.discardedWrites
            discardedTokens := s.queue.discardedTokens, tick := s.time.tick } } ∧
        t.up = (match s.up.cycle with
          | some c => if c.phase = .readHeld then
              { s.up with cycle := some { c with phase := .reading }, timer := none } else s.up
          | none => s.up) ∧
        t = { s with mem := s.memAfter a answer, port := { s.port with access := none }
                     engine := t.engine, queue := t.queue, events := t.events, up := t.up })) ∧
    (∀ (j : Nat) (expect x : Word) (got : List Word), r.phase = .readSlot j expect got →
      a.write = none → x = s.mem.word (a.addr % s.top) →
      s.engineAccess = some { addr := s.engine.durable.windowBase.toNat + 16 * j + got.length
                              write := none } ∧
      (got.length < 15 → exec (.accessComplete none) s = .next { s with
        port := { s.port with access := none }
        engine := { s.engine with work := .rollingBack { r with
          phase := .readSlot j expect (got ++ [x]) } } }) ∧
      (∀ ws, got.length = 15 → ws = got ++ [x] →
        ((ws.getD 0 0 = 0x5A31#16 ∧ wordSum ws = 0xFFFF#16 ∧
            joinWords (ws.getD 1 0) (ws.getD 2 0) = r.group ∧ (ws.getD 3 0).toNat = j ∧
            (joinWords (ws.getD 4 0) (ws.getD 5 0)).toNat % 8 = 0 ∧
            (joinWords (ws.getD 4 0) (ws.getD 5 0)).toNat < s.anchorAddr 0 ∧
            ws.getD 15 0 = expect ∧ (j = 0 → ws.getD 14 0 = 0)) →
          exec (.accessComplete none) s = .next { s with
            port := { s.port with access := none }
            engine := { s.engine with work := .rollingBack { r with
              phase := .restore j (ws.getD 14 0) {
                base := (joinWords (ws.getD 4 0) (ws.getD 5 0)).toNat
                words := (ws.drop 6).take 8, phase := .writing 0 } } } }) ∧
        (¬(ws.getD 0 0 = 0x5A31#16 ∧ wordSum ws = 0xFFFF#16 ∧
            joinWords (ws.getD 1 0) (ws.getD 2 0) = r.group ∧ (ws.getD 3 0).toNat = j ∧
            (joinWords (ws.getD 4 0) (ws.getD 5 0)).toNat % 8 = 0 ∧
            (joinWords (ws.getD 4 0) (ws.getD 5 0)).toNat < s.anchorAddr 0 ∧
            ws.getD 15 0 = expect ∧ (j = 0 → ws.getD 14 0 = 0)) →
          exec (.accessComplete none) s = .next { s with
            port := { s.port with access := none }
            engine := { s.engine with work := .rollingBack { r with
              phase := .void (some j) {
                base := s.anchorAddr (r.group.toNat % 2)
                words := (s.voidedAnchor r.group r.count).words, phase := .writing 0 } } } }))) ∧
    (∀ (j : Nat) (chain : Word) (b : Burst) (d : Bool) (answer : Option Word),
      r.phase = .restore j chain b →
      b.advance s.settings.verify (s.readAnswer a answer) = .ended d →
      exec (.accessComplete answer) s = .next { s with
        mem := s.memAfter a answer, port := { s.port with access := none }
        engine := { s.engine with work := .rollingBack { r with
          restored := satInc r.restored
          mismatches := if d then satInc r.mismatches else r.mismatches
          phase := if j = 0 then .void none {
                base := s.anchorAddr (r.group.toNat % 2)
                words := (s.voidedAnchor r.group r.count).words, phase := .writing 0 }
            else .readSlot (j - 1) chain [] } } })

/-- The VOIDED anchor written ends the rollback: C is the rolled-back group, k and the chain value are 0,
I and the group of every SEAL token rise by one, VOIDED is raised and counted, the last group adds cause
EXHAUSTED, the abandoned flag is clear, the report is filled and a held read is released. That the numbers
rise also past the last group, where a token of that group was held, is the model's choice (log 39). -/
def Obligations.RollbackEnds : Prop :=
  ∀ (s : State) (a : Access) (answer : Option Word) (r : Rollback) (stop : Option Nat) (b : Burst)
    (d : Bool),
    s.port.access = some (.engine, a) → s.engine.work = .rollingBack r → r.phase = .void stop b →
    b.advance s.settings.verify (s.readAnswer a answer) = .ended d → s.gate.opState = .frozen →
    ∃ t, exec (.accessComplete answer) s = .next t ∧
      t.engine = { work := .idle, closed := r.group, count := 0, chain := 0
                   durable := s.engine.durable, abandoned := none } ∧
      t.intake = { s.intake with group := s.intake.group + 1 } ∧
      t.queue.entries.length = s.queue.entries.length ∧
      (∀ (i : Nat) (g : GroupNo) (sw : Option TableRef), s.queue.entries[i]? = some (Entry.sealToken g sw) →
        t.queue.entries[i]? = some (Entry.sealToken (g + 1) sw)) ∧
      (∀ (i : Nat) (e : Entry), s.queue.entries[i]? = some e → e.isSeal = false → t.queue.entries[i]? = some e) ∧
      t.queue.discardedWrites = 0 ∧ t.queue.discardedTokens = 0 ∧
      s.FlagsGain t (fun e => decide (e = .voided)) ∧
      t.events.counters =
        { s.events.counters with voidedGroups := satInc s.events.counters.voidedGroups } ∧
      t.events.restore =
        { origin := r.origin, outcome := if stop.isSome then .torn else .voided
          examined := some r.group, closed := r.group, found := r.count, restored := r.restored
          stopSlot := stop.map (BitVec.ofNat 16), stopReason := none
          mismatches := if d then satInc r.mismatches else r.mismatches
          anchorIndex := some (r.group.toNat % 2), classes := none, tornAnchor := false
          discardedWrites := s.queue.discardedWrites
          discardedTokens := s.queue.discardedTokens, tick := s.time.tick } ∧
      t.gate = { s.gate with causes := if r.group = 0xFFFFFFFE#32 then
        { s.gate.causes with exhausted := true } else s.gate.causes } ∧
      (∀ c, s.up.cycle = some c → c.phase = .readHeld →
        t.up = { s.up with cycle := some { c with phase := .reading }, timer := none }) ∧
      t.mem = s.memAfter a answer ∧ t.region = s.region ∧ t.watch = s.watch ∧
      t.settings = s.settings

/-! ### Start-up recovery and Format -/

/-- The state of memory that the classes of the two anchor positions show. Recovery reads the two anchors
word by word and then ends UNFORMATTED or with ANCHOR damage, or takes C, I and the durable configuration
from the current anchor and scans the window from slot 0; at the last group it adds cause EXHAUSTED, makes
no scan and loads the table. The load of the table: nothing to read, a base that is refused, or its
descriptors checked as they are read, an accepted table becoming active and a rejected one adding cause
TABLE; either way recovery ends. That a rejected descriptor is among those counted as read is the model's
reading (log 23). -/
def Obligations.RecoveryDecides : Prop :=
  (∀ (c0 c1 : AnchorClass) (a0 a1 : Anchor),
    (c0 = .damaged ∨ c1 = .damaged → decideAnchors c0 c1 a0 a1 = .damage) ∧
    (c0 = .valid → c1 = .valid → decideAnchors c0 c1 a0 a1 =
      if a0.formatCount = a1.formatCount ∧ a0.group.toNat = a1.group.toNat + 1 then .current 0 a0
      else if a0.formatCount = a1.formatCount ∧ a1.group.toNat = a0.group.toNat + 1 then
        .current 1 a1
      else .damage) ∧
    (c0 = .valid → c1 = .empty ∨ c1 = .torn → decideAnchors c0 c1 a0 a1 = .current 0 a0) ∧
    (c0 = .empty ∨ c0 = .torn → c1 = .valid → decideAnchors c0 c1 a0 a1 = .current 1 a1) ∧
    (c0 = .empty ∨ c0 = .torn → c1 = .empty ∨ c1 = .torn →
      decideAnchors c0 c1 a0 a1 = .unformatted)) ∧
  (∀ (s : State) (a : Access) (r : Recovery) (got ws : List Word) (x : Word) (c0 c1 : AnchorClass)
    (st : AnchorState),
    s.port.access = some (.engine, a) → s.engine.work = .recovering r → r.phase = .anchors got →
    a.write = none → x = s.mem.word (a.addr % s.top) → ws = got ++ [x] →
    c0 = classifyAnchor s.straps.msize (s.anchorAddr 0) 0 (ws.take 16) →
    c1 = classifyAnchor s.straps.msize (s.anchorAddr 0) 1 (ws.drop 16) →
    st = decideAnchors c0 c1 (anchorOf (ws.take 16)) (anchorOf (ws.drop 16)) →
    s.engineAccess = some { addr := 2 ^ (18 + s.straps.msize.toNat) - 32 + got.length
                            write := none } ∧
    (got.length < 31 → exec (.accessComplete none) s = .next { s with
      port := { s.port with access := none }
      engine := { s.engine with work := .recovering { r with phase := .anchors ws } } }) ∧
    (got.length = 31 → st = .unformatted →
      ∃ t, exec (.accessComplete none) s = .next t ∧ t.gate = { s.gate with
          opState := .unformatted, frz := false, ready := true } ∧
        t.engine = { s.engine with work := .idle, count := 0, chain := 0, abandoned := none } ∧
        t.events.restore.outcome = .unformatted ∧ t.events.restore.classes = some (c0, c1) ∧
        s.FlagsGain t (fun e => decide (e = .recovered)) ∧ t.mem = s.mem ∧
        t.intake = s.intake ∧ t.region = s.region) ∧
    (got.length = 31 → st = .damage →
      ∃ t, exec (.accessComplete none) s = .next t ∧ t.gate.opState = .frozen ∧
        t.gate.frz = true ∧ t.gate.ready = true ∧ t.gate.causes.anchor = true ∧
        t.gate.level = s.gate.level ∧ t.gate.order = s.gate.order ∧
        t.engine = { s.engine with work := .idle, count := 0, chain := 0, abandoned := none } ∧
        t.events.restore.outcome = .anchorDamage ∧ t.events.restore.classes = some (c0, c1) ∧
        s.FlagsGain t (fun e => decide (e = .recovered) || decide (e = .froze)) ∧ t.mem = s.mem ∧
        t.intake = s.intake ∧ t.region = s.region) ∧
    (∀ i n found, got.length = 31 → st = .current i n →
      found = { r with classes := some (c0, c1), current := some i
                       examined := some (n.group + 1) } →
      (n.group ≠ 0xFFFFFFFE#32 → exec (.accessComplete none) s = .next { s with
        port := { s.port with access := none }
        intake := { s.intake with group := n.group + 1 }
        engine := { s.engine with
          closed := n.group
          durable := { windowBase := n.windowBase, slotCount := n.slotCount
                       tableBase := n.tableBase, tableCount := n.tableCount
                       formatCount := n.formatCount }
          work := .recovering { found with phase := .scan 0 0 [] } } }) ∧
      (n.group = 0xFFFFFFFE#32 → exec (.accessComplete none) s = .next (beginTableLoad found { s with
        port := { s.port with access := none }
        intake := { s.intake with group := 0xFFFFFFFF#32 }
        gate := { s.gate with causes := { s.gate.causes with exhausted := true } }
        engine := { s.engine with
          closed := n.group
          durable := { windowBase := n.windowBase, slotCount := n.slotCount
                       tableBase := n.tableBase, tableCount := n.tableCount
                       formatCount := n.formatCount } } })))) ∧
  (∀ (s : State) (r : Recovery) (base : Long), base = s.engine.durable.tableBase →
    (s.engine.durable.tableCount = 0 →
      s.EndsRecovery (beginTableLoad r s) r s.region.active false
        { outcome := .accepted, origin := .startUp, base := 0, read := 0, index := 0
          tick := s.time.tick }) ∧
    (s.engine.durable.tableCount ≠ 0 →
      (base.toNat % 8 ≠ 0 → s.EndsRecovery (beginTableLoad r s) r s.region.active true
        { outcome := .align, origin := .startUp, base := base, read := 0, index := 0
          tick := s.time.tick }) ∧
      (base.toNat % 8 = 0 → s.top ≤ base.toNat →
        s.EndsRecovery (beginTableLoad r s) r s.region.active true
          { outcome := .range, origin := .startUp, base := base, read := 0, index := 0
            tick := s.time.tick }) ∧
      (base.toNat % 8 = 0 → base.toNat < s.top → beginTableLoad r s = { s with
        engine := { s.engine with work := .recovering { r with phase := .table [] [] } } }))) ∧
  (∀ (s free : State) (a : Access) (r : Recovery) (got : List Word) (kept : List Descriptor) (x : Word)
    (base : Long),
    s.port.access = some (.engine, a) → s.engine.work = .recovering r →
    r.phase = .table got kept → a.write = none → x = s.mem.word (a.addr % s.top) →
    base = s.engine.durable.tableBase → free = { s with port := { s.port with access := none } } →
    s.engineAccess =
      some { addr := base.toNat + 8 * kept.length + got.length, write := none } ∧
    (got.length < 7 → exec (.accessComplete none) s = .next { free with
      engine := { s.engine with work := .recovering { r with phase := .table (got ++ [x]) kept } } }) ∧
    (∀ e, got.length = 7 →
      s.checkDescriptor (base.toNat + 8 * kept.length) kept.getLast? (got ++ [x]) = .inl e →
      ∃ t, exec (.accessComplete none) s = .next t ∧ free.EndsRecovery t r s.region.active true
        { outcome := e, origin := .startUp, base := base, read := kept.length + 1
          index := kept.length, tick := s.time.tick }) ∧
    (∀ d, got.length = 7 →
      s.checkDescriptor (base.toNat + 8 * kept.length) kept.getLast? (got ++ [x]) = .inr d →
      (kept.length + 1 < s.engine.durable.tableCount.toNat → d.flags.getLsbD 0 = false →
        exec (.accessComplete none) s = .next { free with
          engine := { s.engine with work := .recovering { r with
            phase := .table [] (kept ++ [d]) } } }) ∧
      (d.flags.getLsbD 0 = decide (kept.length + 1 < s.engine.durable.tableCount.toNat) →
        ∃ t, exec (.accessComplete none) s = .next t ∧ free.EndsRecovery t r s.region.active true
          { outcome := .noEnd, origin := .startUp, base := base, read := kept.length + 1
            index := kept.length, tick := s.time.tick }) ∧
      (∀ e i, s.engine.durable.tableCount.toNat ≤ kept.length + 1 → d.flags.getLsbD 0 = true →
        s.checkWhole { base := base, descs := kept ++ [d] } false = some (e, i) →
        ∃ t, exec (.accessComplete none) s = .next t ∧ free.EndsRecovery t r s.region.active true
          { outcome := e, origin := .startUp, base := base, read := kept.length + 1, index := i
            tick := s.time.tick }) ∧
      (s.engine.durable.tableCount.toNat ≤ kept.length + 1 → d.flags.getLsbD 0 = true →
        s.checkWhole { base := base, descs := kept ++ [d] } false = none →
        ∃ t, exec (.accessComplete none) s = .next t ∧
          free.EndsRecovery t r (some { base := base, descs := kept ++ [d] }) false
            { outcome := .accepted, origin := .startUp, base := base, read := kept.length + 1
              index := 0, tick := s.time.tick })))

/-- The class of a slot's words. The scan reads slot after slot word by word, carries the chain forward from
each slot that belongs and stops at the first that does not or at the end of the window; with none found the
table is loaded. The records found are read again from the newest, and each slot that still matches is
restored, any other counted as a mismatch; after slot 0 the VOIDED anchor of the open group is written, and
with it C, k and I, the event, the counter and at the last group cause EXHAUSTED; then the table is loaded.
-/
def Obligations.RecoveryScan : Prop :=
  (∀ (g : GroupNo) (j : Nat) (chain : Word) (anchor0 : Nat) (ws : List Word) (line : Long),
    line = joinWords (ws.getD 4 0) (ws.getD 5 0) →
    classifySlot g j chain anchor0 ws =
      if ws.getD 0 0 = 0x5A31#16 ∧ joinWords (ws.getD 1 0) (ws.getD 2 0) = g then
        if wordSum ws = 0xFFFF#16 ∧ (ws.getD 3 0).toNat = j ∧ ws.getD 14 0 = chain ∧
          line.toNat % 8 = 0 ∧ line.toNat < anchor0 then .belongs else .torn
      else if ∀ w ∈ ws, w = 0 then .empty else .foreign) ∧
  ∀ (s free : State) (a : Access) (r : Recovery),
    s.port.access = some (.engine, a) → s.engine.work = .recovering r →
    free = { s with port := { s.port with access := none } } →
    (∀ (j : Nat) (chain x : Word) (got ws : List Word), r.phase = .scan j chain got →
      a.write = none → x = s.mem.word (a.addr % s.top) → ws = got ++ [x] →
      s.engineAccess = some { addr := s.engine.durable.windowBase.toNat + 16 * j + got.length
                              write := none } ∧
      (got.length < 15 → exec (.accessComplete none) s = .next { free with
        engine := { s.engine with work := .recovering { r with phase := .scan j chain ws } } }) ∧
      (got.length = 15 →
        classifySlot (s.engine.closed + 1) j chain (s.anchorAddr 0) ws = .belongs →
        (j + 1 < s.engine.durable.slotCount.toNat → exec (.accessComplete none) s = .next { free with
          engine := { s.engine with
            count := BitVec.ofNat 16 (j + 1)
            work := .recovering { r with phase := .scan (j + 1) (ws.getD 15 0) [] } } }) ∧
        (s.engine.durable.slotCount.toNat ≤ j + 1 →
          exec (.accessComplete none) s = .next { free with
            engine := { s.engine with
              count := BitVec.ofNat 16 (j + 1)
              work := .recovering { r with found := BitVec.ofNat 16 (j + 1)
                                           stop := some (BitVec.ofNat 16 (j + 1), .windowEnd)
                                           phase := .reread j [] } } })) ∧
      (∀ c why, got.length = 15 →
        classifySlot (s.engine.closed + 1) j chain (s.anchorAddr 0) ws = c →
        (c = .torn ∧ why = .torn) ∨ ((c = .empty ∨ c = .foreign) ∧ why = .sequence) →
        (0 < j → exec (.accessComplete none) s = .next { free with
          engine := { s.engine with work := .recovering { r with
            found := BitVec.ofNat 16 j, stop := some (BitVec.ofNat 16 j, why)
            phase := .reread (j - 1) [] } } }) ∧
        (j = 0 → exec (.accessComplete none) s =
          .next (beginTableLoad { r with found := 0, stop := some (0, why) } free)))) ∧
    (∀ (j : Nat) (x : Word) (got ws : List Word), r.phase = .reread j got →
      a.write = none → x = s.mem.word (a.addr % s.top) → ws = got ++ [x] →
      s.engineAccess = some { addr := s.engine.durable.windowBase.toNat + 16 * j + got.length
                              write := none } ∧
      (got.length < 15 → exec (.accessComplete none) s = .next { free with
        engine := { s.engine with work := .recovering { r with phase := .reread j ws } } }) ∧
      (got.length = 15 →
        (wordSum ws = 0xFFFF#16 ∧ joinWords (ws.getD 1 0) (ws.getD 2 0) = s.engine.closed + 1 ∧
            (ws.getD 3 0).toNat = j →
          exec (.accessComplete none) s = .next { free with
            engine := { s.engine with work := .recovering { r with
              phase := .restore j {
                base := (joinWords (ws.getD 4 0) (ws.getD 5 0)).toNat
                words := (ws.drop 6).take 8, phase := .writing 0 } } } }) ∧
        (¬ (wordSum ws = 0xFFFF#16 ∧ joinWords (ws.getD 1 0) (ws.getD 2 0) = s.engine.closed + 1 ∧
            (ws.getD 3 0).toNat = j) →
          exec (.accessComplete none) s = .next { free with
            engine := { s.engine with work := .recovering { r with
              mismatches := satInc r.mismatches
              phase := if j = 0 then .void {
                    base := s.anchorAddr ((s.engine.closed + 1).toNat % 2)
                    words := (s.voidedAnchor (s.engine.closed + 1) r.found).words
                    phase := .writing 0 }
                else .reread (j - 1) [] } } }))) ∧
    (∀ (j : Nat) (b : Burst) (d : Bool) (answer : Option Word), r.phase = .restore j b →
      b.advance false (s.readAnswer a answer) = .ended d →
      exec (.accessComplete answer) s = .next { free with
        mem := s.memAfter a answer
        engine := { s.engine with work := .recovering { r with
          restored := satInc r.restored
          phase := if j = 0 then .void {
                base := s.anchorAddr ((s.engine.closed + 1).toNat % 2)
                words := (s.voidedAnchor (s.engine.closed + 1) r.found).words
                phase := .writing 0 }
            else .reread (j - 1) [] } } }) ∧
    (∀ (b : Burst) (d : Bool) (answer : Option Word), r.phase = .void b →
      b.advance false (s.readAnswer a answer) = .ended d →
      ∃ u, exec (.accessComplete answer) s = .next (beginTableLoad r u) ∧
        u.engine = { s.engine with closed := s.engine.closed + 1, count := 0, chain := 0 } ∧
        u.intake = { s.intake with group := s.engine.closed + 1 + 1 } ∧
        u.gate = { s.gate with causes := if s.engine.closed + 1 = 0xFFFFFFFE#32 then
          { s.gate.causes with exhausted := true } else s.gate.causes } ∧
        s.FlagsGain u (fun e => decide (e = .voided)) ∧
        u.events.counters =
          { s.events.counters with voidedGroups := satInc s.events.counters.voidedGroups } ∧
        u = { free with mem := s.memAfter a answer, engine := u.engine, intake := u.intake
                        gate := u.gate
                        events := { s.events with flags := u.events.flags, attn := u.events.attn
                                                  pulse := u.events.pulse
                                                  counters := u.events.counters } })

/-- Format reads the two anchors, fixes the format count, clears the anchor block word by word, the current
anchor's position or else anchor 0 last, then the new window, and then writes the FORMATTED anchor. Format
that has written its anchor leaves C 0, I 1, the new window, no table and the new format count, and opens the
gate or freezes for an ACTIVE enabled line; a difference in the read-back zeroes anchor 0 instead, and the
part is then UNFORMATTED with no window. -/
def Obligations.FormatEnds : Prop :=
  ∀ (s : State) (a : Access) (answer : Option Word) (f : Format) (b : Burst),
    s.port.access = some (.engine, a) → s.engine.work = .formatting f →
    (∀ (got ws ws0 ws1 : List Word) (x : Word) (st : AnchorState) (intact0 intact1 : Prop),
      f.phase = .anchors got → a.write = none → x = s.mem.word (a.addr % s.top) →
      ws = got ++ [x] → ws0 = ws.take 16 → ws1 = ws.drop 16 →
      (intact0 ↔ ws0.getD 0 0 = 0x5A32#16 ∧ wordSum ws0 = 0xFFFF#16) →
      (intact1 ↔ ws1.getD 0 0 = 0x5A32#16 ∧ wordSum ws1 = 0xFFFF#16) →
      st = decideAnchors (classifyAnchor s.straps.msize (s.anchorAddr 0) 0 ws0)
        (classifyAnchor s.straps.msize (s.anchorAddr 0) 1 ws1) (anchorOf ws0) (anchorOf ws1) →
      s.engineAccess = some { addr := 2 ^ (18 + s.straps.msize.toNat) - 32 + got.length
                              write := none } ∧
      (got.length < 31 → exec (.accessComplete none) s = .next { s with
        port := { s.port with access := none }
        engine := { s.engine with work := .formatting { f with phase := .anchors ws } } }) ∧
      (got.length = 31 → ∃ fc first, exec (.accessComplete none) s = .next { s with
          port := { s.port with access := none }
          engine := { s.engine with work := .formatting { f with
            formatCount := fc, phase := .clearAnchors first 0 } } } ∧
        (∀ i n, st = .current i n → fc = n.formatCount + 1 ∧ first = if i = 0 then 1 else 0) ∧
        ((∀ i n, st ≠ .current i n) → first = 1 ∧
          (intact0 → intact1 → (anchorOf ws1).formatCount.toNat ≤ (anchorOf ws0).formatCount.toNat →
            fc = (anchorOf ws0).formatCount + 1) ∧
          (intact0 → intact1 → (anchorOf ws0).formatCount.toNat ≤ (anchorOf ws1).formatCount.toNat →
            fc = (anchorOf ws1).formatCount + 1) ∧
          (intact0 → ¬intact1 → fc = (anchorOf ws0).formatCount + 1) ∧
          (¬intact0 → intact1 → fc = (anchorOf ws1).formatCount + 1) ∧
          (¬intact0 → ¬intact1 → fc = 1)))) ∧
    (∀ first n, f.phase = .clearAnchors first n →
      s.engineAccess = some
        { addr := 2 ^ (18 + s.straps.msize.toNat) - 32 + 16 * (if n < 16 then first else 1 - first) +
            n % 16
          write := some (0, .both) } ∧
      exec (.accessComplete answer) s = .next { s with
        mem := s.memAfter a answer, port := { s.port with access := none }
        engine := { s.engine with work := .formatting { f with
          phase := if n < 31 then .clearAnchors first (n + 1) else .clearWindow 0 } } }) ∧
    (∀ n, f.phase = .clearWindow n →
      s.engineAccess = some { addr := f.base.toNat + n, write := some (0, .both) } ∧
      exec (.accessComplete answer) s = .next { s with
        mem := s.memAfter a answer, port := { s.port with access := none }
        engine := { s.engine with work := .formatting { f with
          phase := if n + 1 < 16 * f.slots.toNat then .clearWindow (n + 1)
            else .anchor { base := 2 ^ (18 + s.straps.msize.toNat) - 32
                           words := (s.formattedAnchor f).words, phase := .writing 0 } } } }) ∧
    (f.phase = .anchor b → b.advance s.settings.verify (s.readAnswer a answer) = .ended false →
      ∃ t, exec (.accessComplete answer) s = .next t ∧
        t.engine = { work := .idle, closed := 0, count := 0, chain := 0
                     durable := { windowBase := f.base, slotCount := f.slots, tableBase := 0
                                  tableCount := 0, formatCount := f.formatCount }
                     abandoned := s.engine.abandoned } ∧
        t.intake = { s.intake with group := 1 } ∧
        t.gate.causes = { s.gate.causes with
          pfail := s.gate.causes.pfail || (s.settings.pfailEnabled && s.gate.pfail.active)
          fault := s.gate.causes.fault || (s.settings.faultEnabled && s.gate.fault.active) } ∧
        t.gate.opState = (if t.gate.causes.any then .frozen else .running) ∧
        t.gate.frz = t.gate.causes.any ∧ t.gate.level = s.gate.level ∧
        t.gate.order = s.gate.order ∧
        s.FlagsGain t (fun e => decide (e = .formatted) ||
          (t.gate.causes.any && decide (e = .froze))) ∧
        t.mem = s.memAfter a answer ∧ t.queue = s.queue ∧ t.region = s.region) ∧
    (f.phase = .anchor b → b.advance s.settings.verify (s.readAnswer a answer) = .ended true →
      exec (.accessComplete answer) s = .next { s with
        mem := s.memAfter a answer, port := { s.port with access := none }
        engine := { s.engine with work := .formatting { f with phase := .retract {
            base := s.anchorAddr 0, words := List.replicate 16 0, phase := .writing 0 } } } }) ∧
    (∀ d, f.phase = .retract b → b.advance false (s.readAnswer a answer) = .ended d →
      exec (.accessComplete answer) s = .next { s with
        mem := s.memAfter a answer, port := { s.port with access := none }
        intake := { s.intake with group := 1 }
        engine := { work := .idle, closed := 0, count := 0, chain := 0
                    durable := { windowBase := 0, slotCount := 0, tableBase := 0, tableCount := 0
                                 formatCount := 0 }
                    abandoned := s.engine.abandoned }
        gate := { s.gate with opState := .unformatted, frz := false, ready := true } })

/-! ### Durable structures -/

/-- The check word, the 16 words of an anchor and of a LINE record place by place, and what each reads back
as; and the fields of the SEALED, VOIDED and FORMATTED anchors. -/
def Obligations.DurableStructuresReadBack : Prop :=
  (∀ (ws : List Word) (h l : Word), joinWords h l = h ++ l ∧
    wordSum ws = ws.foldr (fun x y => x + y) 0 ∧ wordSum (ws ++ [checkWord ws]) = 0xFFFF#16 ∧
    checkWord ws = ~~~ ws.foldr (fun x y => x + y) 0) ∧
  (∀ a : Anchor, a.words.length = 16 ∧ anchorIntact a.words = true ∧ anchorOf a.words = a ∧
    a.words.take 15 = [0x5A32#16, a.group.extractLsb' 16 16, a.group.extractLsb' 0 16, a.outcome,
      a.windowBase.extractLsb' 16 16, a.windowBase.extractLsb' 0 16, a.slotCount,
      a.tableBase.extractLsb' 16 16, a.tableBase.extractLsb' 0 16, a.tableCount, a.index, a.records,
      a.msize, a.formatCount.extractLsb' 16 16, a.formatCount.extractLsb' 0 16] ∧
    a.words.getD 15 0 = checkWord (a.words.take 15)) ∧
  (∀ (g : GroupNo) (k c : Word) (l : Long) (image : List Word), image.length = 8 →
    (recordWords g k l image c).length = 16 ∧ wordSum (recordWords g k l image c) = 0xFFFF#16 ∧
    (recordWords g k l image c).take 15 = [0x5A31#16, g.extractLsb' 16 16, g.extractLsb' 0 16, k,
      l.extractLsb' 16 16, l.extractLsb' 0 16] ++ image ++ [c] ∧
    (recordWords g k l image c).getD 15 0 = checkWord ((recordWords g k l image c).take 15) ∧
    recordGroup (recordWords g k l image c) = g ∧ recordLine (recordWords g k l image c) = l ∧
    recordImage (recordWords g k l image c) = image ∧ recordChain (recordWords g k l image c) = c ∧
    (∀ anchor0, l.toNat % 8 = 0 → l.toNat < anchor0 →
      classifySlot g k.toNat c anchor0 (recordWords g k l image c) = .belongs)) ∧
  (∀ (s : State) (d : Durable), d = s.engine.durable →
    (∀ sw, s.sealedAnchor sw =
      { group := s.engine.closed + 1, outcome := 2, windowBase := d.windowBase
        slotCount := d.slotCount
        tableBase := match sw with | some x => x.base | none => d.tableBase
        tableCount := match sw with | some x => x.count | none => d.tableCount
        index := BitVec.ofNat 16 ((s.engine.closed + 1).toNat % 2), records := s.engine.count
        msize := BitVec.ofNat 16 s.straps.msize.toNat, formatCount := d.formatCount }) ∧
    (∀ g k, s.voidedAnchor g k =
      { group := g, outcome := 3, windowBase := d.windowBase, slotCount := d.slotCount
        tableBase := d.tableBase, tableCount := d.tableCount
        index := BitVec.ofNat 16 (g.toNat % 2), records := k
        msize := BitVec.ofNat 16 s.straps.msize.toNat, formatCount := d.formatCount }) ∧
    (∀ f, s.formattedAnchor f =
      { group := 0, outcome := 1, windowBase := f.base, slotCount := f.slots, tableBase := 0
        tableCount := 0, index := 0, records := 0
        msize := BitVec.ofNat 16 s.straps.msize.toNat, formatCount := f.formatCount }))

/-- The class of an anchor position as it is read. A DAMAGED one is damage whatever the other position is, and
a TORN one is passed over. -/
def Obligations.AnchorClasses : Prop :=
  (∀ (m : BitVec 2) (anchor0 pos : Nat) (ws : List Word) (a : Anchor), a = anchorOf ws →
    (ws.getD 0 0 = 0x5A32#16 ∧ wordSum ws = 0xFFFF#16 →
      (classifyAnchor m anchor0 pos ws = .damaged ↔
        a.index.toNat ≠ pos ∨ a.group.toNat % 2 ≠ pos ∨ a.msize.toNat ≠ m.toNat ∨
        (a.outcome ≠ 1 ∧ a.outcome ≠ 2 ∧ a.outcome ≠ 3) ∨
        (a.outcome = 1 ∧ a.group ≠ 0) ∨ (a.group = 0 ∧ a.outcome ≠ 1) ∨
        a.group = 0xFFFFFFFF#32 ∨
        (a.windowBase.toNat % 16 ≠ 0 ∨ a.slotCount.toNat < 16 ∨
          anchor0 ≤ a.windowBase.toNat + 16 * a.slotCount.toNat - 1) ∨
        16 < a.tableCount.toNat ∨ a.slotCount.toNat < a.records.toNat) ∧
      (classifyAnchor m anchor0 pos ws = .damaged ∨ classifyAnchor m anchor0 pos ws = .valid)) ∧
    (¬(ws.getD 0 0 = 0x5A32#16 ∧ wordSum ws = 0xFFFF#16) →
      classifyAnchor m anchor0 pos ws = if ∀ w ∈ ws, w = 0 then .empty else .torn)) ∧
  (∀ (c : AnchorClass) (a0 a1 : Anchor),
    decideAnchors .damaged c a0 a1 = .damage ∧ decideAnchors c .damaged a0 a1 = .damage ∧
    decideAnchors .valid .torn a0 a1 = .current 0 a0 ∧
    decideAnchors .torn .valid a0 a1 = .current 1 a1 ∧
    decideAnchors .torn .torn a0 a1 = .unformatted)

/-! ### Samples, events and ticks -/

/-- Samples of SEAL and of the two lines: an edge of SEAL is a commit request only after a negated sample;
a sample at a line's active level begins a run, the other level ends it, and the first sample after a
reset makes no edge and no event. The request of an edge finds the claim of a waiting write made (log 13).
Where a row stands for no such sample the state stays (log 3), a run qualifies at its first sample with an
input filter of 0 (log 12), and SEAL_EDGE as a first sample stores the level only (log 32). -/
def Obligations.LineSamples : Prop :=
  ∀ s : State,
    (∀ u, s.intake.sealSample = some false → exec .waitingWriteClaim s = .next u →
      exec .sealEdge s =
        .next (takeCommit { u with intake := { u.intake with sealSample := some true } })) ∧
    (s.intake.sealSample ≠ some false → exec .sealEdge s =
      .next { s with intake := { s.intake with sealSample := some true } }) ∧
    exec .sealNegated s = .next { s with intake := { s.intake with sealSample := some false } } ∧
    s.input .pfail = s.gate.pfail ∧ s.input .fault = s.gate.fault ∧
    (∀ x, setInput .pfail x s = { s with gate := { s.gate with pfail := x } } ∧
      setInput .fault x s = { s with gate := { s.gate with fault := x } }) ∧
    s.activeLevel .pfail = false ∧
    s.activeLevel .fault = decide (s.settings.faultPolarity = .highActive) ∧
    (∀ l, ((s.input l).run = none → exec (.lineRunBegin l) s = .next (setInput l
        { active := false, run := some 0, last := some (s.activeLevel l)
          qualified := decide (s.settings.inputFilter = 0) } s)) ∧
      ((s.input l).run ≠ none → exec (.lineRunBegin l) s = .next s) ∧
      exec (.lineRelease l) s = .next (setInput l
        { active := false, run := none, last := some (!s.activeLevel l), qualified := false } s)) ∧
    (∀ x p f : Bool, s.intake.sealSample = none → s.gate.pfail.last = none →
      s.gate.fault.last = none → exec (.firstSample x p f) s = .next { s with
        intake := { s.intake with sealSample := some x }
        gate := { s.gate with
          pfail := if p = false then
              { active := false, run := some 0, last := some p
                qualified := decide (s.settings.inputFilter = 0) }
            else { active := false, run := none, last := some p, qualified := false }
          fault := if f = s.activeLevel .fault then
              { active := false, run := some 0, last := some f
                qualified := decide (s.settings.inputFilter = 0) }
            else { active := false, run := none, last := some f, qualified := false } } })

/-- LINE_EVENT, which says that a run has lasted the filter time, makes its line ACTIVE, and an enabled line
is then a trigger with its cause and its action setting, which only RUNNING and FROZEN take; with no run, or
ACTIVE already, there is no event (log 3). That the row stands for its moment whatever the length counted,
and that the run then counts as at least the filter time long and qualified, are the model's choice (logs 2
and 12). -/
def Obligations.LineEvents : Prop :=
  ∀ (s : State) (l : InputLine) (t : State) (on : Bool) (cause : Cause) (a : Action),
    (l = .pfail → on = s.settings.pfailEnabled ∧ cause = .pfail ∧ a = s.settings.pfailAction) →
    (l = .fault → on = s.settings.faultEnabled ∧ cause = .fault ∧ a = s.settings.faultAction) →
    (∀ n, (s.input l).run = some n → (s.input l).active = false →
      t = setInput l { active := true, qualified := true, last := (s.input l).last
                       run := some (max n s.settings.inputFilter.toNat) } s →
      exec (.lineEvent l) s = .next (if on then trigger cause a t else t) ∧
      (s.gate.opState ≠ .running → s.gate.opState ≠ .frozen →
        exec (.lineEvent l) s = .next t)) ∧
    ((s.input l).run = none ∨ (s.input l).active = true → exec (.lineEvent l) s = .next s)

/-- A tick adds one to the tick counter with wrap, puts the interval setting in force and moves the
auto-commit count; an auto-commit request that is due is taken as a commit request, behind the claim of a
waiting write, and the count goes on by its outcome; a timed pulse that ends negates ATTN. The model's form
of it: TICK and ATTN_PULSE_END stand for their moment, so that the counts inside the tick return to 0 and a
microsecond not yet begun begins with the CLOCK RATE in force, and the pulse ends whatever time is left
(log 2); the request is due from the tick until Intake takes it (log 17); the claim is made first (log 13);
and with no request due or no pulse in progress their rows change nothing (log 3). -/
def Obligations.TimebaseEvents : Prop :=
  ∀ s : State,
    (exec .tick s = .next { s with
      time := { clk := 0, us := 0, tick := s.time.tick + 1
                perUs := if 1000 ≤ s.time.us then s.time.perUs else s.settings.clockRate.toNat }
      intake := { s.intake with interval := s.settings.autoInterval, auto :=
        if s.settings.autoInterval = 0 then { count := 0, running := false, due := false }
        else if s.intake.auto.running then
          { count := satInc s.intake.auto.count
            running := decide ((satInc s.intake.auto.count).toNat < s.settings.autoInterval.toNat)
            due := decide (s.settings.autoInterval.toNat ≤ (satInc s.intake.auto.count).toNat) }
        else if s.intake.dirty ∧ s.intake.auto.count = 0 then
          { count := 0, running := true, due := false }
        else s.intake.auto } }) ∧
    (s.intake.auto.due = false → exec .autoCommitExpiry s = .next s) ∧
    (∀ u, s.intake.auto.due = true → exec .waitingWriteClaim s = .next u →
      (u.commitStep = .token → exec .autoCommitExpiry s = .next (makeToken u)) ∧
      (u.commitStep = .held → exec .autoCommitExpiry s = .next { u with intake := { u.intake with
        pendingCommit := true
        auto := { u.intake.auto with running := false, due := false } } }) ∧
      (u.commitStep = .merged → exec .autoCommitExpiry s = .next { u with intake := { u.intake with
        auto := { u.intake.auto with running := false, due := false } } }) ∧
      (∀ r, u.commitStep = .refusedBy r → exec .autoCommitExpiry s = .next { u with
        intake := { u.intake with auto := { count := 0, running := true, due := false } } }) ∧
      (u.commitStep = .nothing → exec .autoCommitExpiry s = .next { u with
        intake := { u.intake with auto := { count := 0, running := false, due := false } } })) ∧
    (s.events.pulse = none → exec .attnPulseEnd s = .next s) ∧
    (s.events.pulse ≠ none → exec .attnPulseEnd s =
      .next { s with events := { s.events with attn := false, pulse := none } })

/-! ### Frames of the control link -/

/-- CSN falling begins a frame once the link has seen it high; CSN rising ends it and records the result
of its command, or BADREQ for a frame cut before its command was taken; a byte that is no command is
taken with BADREQ; outside a frame, and after its command, nothing is taken. SDO is high-impedance outside a
frame, and in it gives 00h up to the turnaround byte, the result code, the response and then FFh. The command
byte and its parameters, most significant byte first, give the command as the last of them is completed, and
no other number of bytes does. What a frame without a completed byte records, that bytes after the command do
nothing, and that FRAME_START while CSN is low already begins no frame and keeps the one in progress, are the
model's readings (logs 15, 16 and 31). -/
def Obligations.Frames : Prop :=
  (∀ s : State,
    (s.link.csnLow = false → s.link.seenHigh = true → exec .frameStart s = .next { s with
      link := { s.link with csnLow := true, frame := some { taken := none } } }) ∧
    (s.link.csnLow = true ∨ s.link.seenHigh = false → exec .frameStart s = .next { s with
      link := { s.link with csnLow := true } }) ∧
    (∀ n, exec (.frameEnd n) s = .next { s with link :=
      { csnLow := false, seenHigh := true, frame := none
        last := match s.link.frame with
          | none => s.link.last
          | some { taken := some x } => x.result
          | some { taken := none } => if n = 0 then s.link.last else .badReq } }) ∧
    (∀ b : Byte, b = 0 ∨ 0x0D#8 < b → s.link.frame = some { taken := none } →
      exec (.unknownCommand b) s = .next (s.answered 0 .badReq [])) ∧
    (∀ c b, c.isLinkCommand = true ∨ c = .unknownCommand b →
      s.link.frame ≠ some { taken := none } → exec c s = .next s) ∧
    (s.link.frame = none → ∀ i, s.sdo i = none) ∧
    (s.link.frame = some { taken := none } → ∀ i, s.sdo i = some 0) ∧
    (∀ x, s.link.frame = some { taken := some x } →
      (∀ i, i < x.params + 2 → s.sdo i = some 0) ∧
      s.sdo (x.params + 2) = some (match x.result with
        | .none => 0 | .done => 1 | .busy => 2 | .badReq => 3 | .empty => 4 | .notFrozen => 5
        | .openGroup => 6 | .triggerActive => 7 | .noTable => 8 | .unformatted => 9
        | .notPermitted => 10) ∧
      (∀ i b, x.response[i]? = some b → s.sdo (x.params + 3 + i) = some b) ∧
      (∀ i, x.params + 3 + x.response.length ≤ i → s.sdo i = some 0xFF#8))) ∧
  (∀ a b c h l : Byte,
    frameCommand [0x01#8] = some .status ∧ frameCommand [0x02#8] = some .commit ∧
    frameCommand [0x03#8, a, b, c] = some (.loadTable (a ++ b ++ c)) ∧
    frameCommand [0x04#8] = some .thaw ∧ frameCommand [0x05#8] = some .rollback ∧
    frameCommand [0x06#8, a, b, c, h, l] = some (.format (a ++ b ++ c) (h ++ l)) ∧
    (∃ i : Instr, frameCommand [0x07#8, a, h, l] = some i ∧ i.setOf = some (a, h ++ l)) ∧
    frameCommand [0x08#8, a] = some (.get a) ∧
    frameCommand [0x09#8, h, l] = some (.clearEvents (h ++ l)) ∧
    frameCommand [0x0A#8, a] = some (.readReport a) ∧
    frameCommand [0x0B#8, a] = some (.clearWatch a) ∧ frameCommand [0x0C#8] = some .clearCounters ∧
    frameCommand [0x0D#8, a] = some (.freeze a) ∧
    (a = 0 ∨ 0x0D#8 < a → frameCommand [a] = some (.unknownCommand a))) ∧
  (∀ c : Instr, c.wellFormed = true → (c.isLinkCommand = true ∨ ∃ b, c = .unknownCommand b) →
    frameCommand c.frameBytes = some c ∧
    (∀ front back, c.frameBytes = front ++ back → back ≠ [] → frameCommand front = none) ∧
    (∀ more, more ≠ [] → frameCommand (c.frameBytes ++ more) = none) ∧
    (∀ s : State, s.link.frame = some { taken := none } →
      ∃ t x, exec c s = .next t ∧ t.link.frame = some { taken := some x } ∧
        x.params + 1 = c.frameBytes.length))

/-- STATUS, GET and READ REPORT are taken in every operating state, answer DONE with the bytes captured,
field by field and most significant byte first, and change nothing but the frame; an unknown setting answers
BADREQ with 0 and an unknown report BADREQ with no bytes. Of a table base that three bytes cannot hold the
TABLE report gives a free value, and no clause here says which (log 18). -/
def Obligations.Readouts : Prop :=
  (∀ (w : Word) (x : BitVec 24) (y : Long),
    bytes2 w = [w.extractLsb' 8 8, w.extractLsb' 0 8] ∧
    bytes3 x = [x.extractLsb' 16 8, x.extractLsb' 8 8, x.extractLsb' 0 8] ∧
    bytes4 y = [y.extractLsb' 24 8, y.extractLsb' 16 8, y.extractLsb' 8 8, y.extractLsb' 0 8]) ∧
  ∀ s : State, s.link.frame = some { taken := none } →
    (∃ bs : List Byte, exec .status s = .next (s.answered 0 .done bs) ∧ bs.length = 27 ∧
      bs.getD 0 0 = (match s.gate.opState with
        | .recovering => 0 | .unformatted => 1 | .formatting => 2 | .running => 3 | .frozen => 4) ∧
      bs.getD 1 0 = (if s.gate.causes.exhausted then 1 else 0) ∧
      (∀ x ∈ [(0, s.gate.causes.pfail), (1, s.gate.causes.fault), (2, s.gate.causes.watch),
          (3, s.gate.causes.soft), (4, s.gate.causes.jfull), (5, s.gate.causes.verify),
          (6, s.gate.causes.table), (7, s.gate.causes.anchor)], (bs.getD 2 0).getLsbD x.1 = x.2) ∧
      bs.getD 3 0 = (match s.gate.level with
        | .none => 0 | .sealGroup => 1 | .stop => 2 | .rollback => 3) ∧
      bs.getD 4 0 = (match s.engine.work with
        | .idle => 0 | .draining _ => 1 | .rollingBack _ => 2 | .recovering _ => 3
        | .formatting _ => 4) ∧
      bs.getD 5 0 = (match s.engine.work with
        | .draining (.copy _) => 1
        | .draining (.record b) => (match b.phase with
          | .writing _ => 2
          | .checking _ _ => 3)
        | .draining .apply => 4
        | .draining (.anchor b) => (match b.phase with
          | .writing _ => 5
          | .checking _ _ => 6)
        | .draining (.tableRead _ _) => 7
        | .idle | .rollingBack _ | .recovering _ | .formatting _ => 0) ∧
      bs.getD 6 0 = BitVec.ofNat 8 s.queue.entries.length ∧
      (∀ x ∈ [(0, s.intake.pendingCommit), (1, decide (s.engine.abandoned ≠ none)),
          (2, decide (s.gate.order ≠ none)), (3, decide (s.gate.pfail.last = some true)),
          (4, decide (s.gate.fault.last = some true)), (5, s.straps.maint), (6, false), (7, false)],
        (bs.getD 7 0).getLsbD x.1 = x.2) ∧
      bs.getD 8 0 = (match s.region.state with
        | .none => 0 | .pending _ => 1 | .ready _ => 2) ∧
      bs.getD 9 0 = s.straps.msize.zeroExtend 8 ∧
      (bs.drop 10).take 16 = bytes4 s.intake.group ++ bytes4 s.engine.closed ++
        bytes2 s.engine.count ++ bytes4 (s.engine.abandoned.getD 0) ++
        bytes2 (s.events.flags.zeroExtend 16) ∧
      bs.getD 26 0 = (match s.link.last with
        | .none => 0 | .done => 1 | .busy => 2 | .badReq => 3 | .empty => 4 | .notFrozen => 5
        | .openGroup => 6 | .triggerActive => 7 | .noTable => 8 | .unformatted => 9
        | .notPermitted => 10)) ∧
    (∀ (id : Byte) (x : Setting), settingOf id = some x → exec (.get id) s =
      .next (s.answered 1 .done (bytes2 (x.read s)))) ∧
    (∀ id : Byte, settingOf id = none →
      exec (.get id) s = .next (s.answered 1 .badReq [0, 0])) ∧
    (∀ r, r = s.events.restore → ∃ bs : List Byte,
      exec (.readReport 0x01#8) s = .next (s.answered 1 .done bs) ∧ bs.length = 28 ∧
      bs.getD 0 0 = (match r.origin with
        | .startUp => 0 | .command => 1 | .pfail => 2 | .fault => 3 | .watch => 4 | .soft => 5
        | .jfull => 6 | .verify => 7) ∧
      bs.getD 1 0 = (match r.outcome with
        | .notRun => 0 | .unformatted => 1 | .anchorDamage => 2 | .clean => 3 | .rolledBack => 4
        | .rolledBackTorn => 5 | .rolledBackEnd => 6 | .voided => 7 | .torn => 8 | .empty => 9) ∧
      (∀ x ∈ [(0, decide (r.examined ≠ none)), (1, decide (r.stopSlot ≠ none)),
          (2, decide (r.anchorIndex ≠ none)), (3, decide (r.classes ≠ none)),
          (4, decide (r.stopReason ≠ none)), (5, false), (6, false), (7, false)],
        (bs.getD 2 0).getLsbD x.1 = x.2) ∧
      (bs.drop 3).take 14 = bytes4 (r.examined.getD 0) ++ bytes4 r.closed ++ bytes2 r.found ++
        bytes2 r.restored ++ bytes2 (r.stopSlot.getD 0) ∧
      bs.getD 17 0 = (match r.stopReason with
        | none | some .sequence => 0 | some .torn => 1 | some .windowEnd => 2) ∧
      (bs.drop 18).take 2 = bytes2 r.mismatches ∧
      bs.getD 20 0 = BitVec.ofNat 8 (r.anchorIndex.getD 0) ∧
      (∀ c0 c1, r.classes = some (c0, c1) →
        (bs.getD 21 0).extractLsb' 0 2 = (match c0 with
          | .valid => 0 | .damaged => 1 | .empty => 2 | .torn => 3) ∧
        (bs.getD 21 0).extractLsb' 2 2 = (match c1 with
          | .valid => 0 | .damaged => 1 | .empty => 2 | .torn => 3)) ∧
      (r.classes = none → (bs.getD 21 0).extractLsb' 0 4 = 0) ∧
      (bs.getD 21 0).getLsbD 4 = r.tornAnchor ∧ (bs.getD 21 0).extractLsb' 5 3 = 0 ∧
      bs.drop 22 = bytes2 r.discardedWrites ++ bytes2 r.discardedTokens ++ bytes2 r.tick) ∧
    (∀ r, r = s.region.result → ∃ bs : List Byte,
      exec (.readReport 0x02#8) s = .next (s.answered 1 .done bs) ∧ bs.length = 9 ∧
      bs.getD 0 0 = (match r.outcome with
        | .notRun => 0 | .accepted => 1 | .check => 2 | .cls => 3 | .range => 4 | .order => 5
        | .align => 6 | .reserved => 7 | .noEnd => 8 | .lock => 9) ∧
      bs.getD 1 0 = (match r.origin with | .load => 0 | .startUp => 1) ∧
      (r.base.toNat < 2 ^ 24 → (bs.drop 2).take 3 = bytes3 (r.base.extractLsb' 0 24)) ∧
      bs.drop 5 = [BitVec.ofNat 8 r.read, BitVec.ofNat 8 r.index] ++ bytes2 r.tick) ∧
    (s.events.refusal = none →
      exec (.readReport 0x03#8) s = .next (s.answered 1 .done (List.replicate 10 0))) ∧
    (∀ c, s.events.refusal = some c →
      exec (.readReport 0x03#8) s = .next (s.answered 1 .done ([1] ++ bytes3 (c.addr.zeroExtend 24) ++
        [match c.direction with | .read => 0#8 | .write => 1#8,
          match c.reason with
          | .cls => 0 | .watch => 1 | .gate => 2 | .state => 3 | .timeout => 4] ++
        bytes2 c.tag ++ bytes2 c.tick))) ∧
    (∀ (id : Byte) (n : Fin 4) (u : WatchUnit), id.toNat = 4 + n.val → u = s.watch.get n →
      (u.capture = none → exec (.readReport id) s =
        .next (s.answered 1 .done ([0] ++ bytes2 u.hits ++ List.replicate 14 0))) ∧
      (∀ c, u.capture = some c → exec (.readReport id) s =
        .next (s.answered 1 .done ([1] ++ bytes2 u.hits ++ bytes3 (c.addr.zeroExtend 24) ++
          [match c.direction with | .read => 0#8 | .write => 1#8,
            match c.lanes with | .upper => 1 | .lower => 2 | .both => 3] ++ bytes2 c.data ++
          [match c.cls with
            | .direct => 0#8 | .journaled => 1 | .guarded => 2 | .closed => 3 | .reserved => 4] ++
          bytes4 c.group ++ bytes2 c.tick)))) ∧
    exec (.readReport 0x08#8) s =
      .next (s.answered 1 .done (bytes2 s.events.counters.classRefusals ++
        bytes2 s.events.counters.gateRefusals ++ bytes2 s.events.counters.watchRefusals ++
        bytes2 s.events.counters.waitTimeouts ++ bytes2 s.events.counters.refusedReads ++
        bytes2 s.events.counters.rejournaled ++ bytes2 s.events.counters.sealedGroups ++
        bytes2 s.events.counters.voidedGroups)) ∧
    (∀ id : Byte, id.toNat = 0 ∨ 8 < id.toNat →
      exec (.readReport id) s = .next (s.answered 1 .badReq []))

/-- In RECOVERING and FORMATTING every command but the readouts answers BUSY; and a command that answers
anything but DONE changes nothing but the frame that carries the answer. -/
def Obligations.BusyAndRefusedCommands : Prop :=
  (∀ (c : Instr) (s : State), c.isLinkCommand = true → c.isReadout = false →
    s.link.frame = some { taken := none } →
    s.gate.opState = .recovering ∨ s.gate.opState = .formatting →
    ∃ n, exec c s = .next (s.answered n .busy [])) ∧
  (∀ (c : Instr) (s t : State), c.isLinkCommand = true → s.link.frame = some { taken := none } →
    exec c s = .next t → t.frameResult ≠ some .done →
    ∃ n r bs, t = s.answered n r bs)

/-! ### Settings -/

/-- SET, whichever row carries it: BADREQ for an unknown id or a value out of range; else DONE, the setting
then reads the value and every other reads as before, and the value already held changes nothing. The ids,
the ranges and what each setting reads as, those of the four watch units among them. -/
def Obligations.SetStores : Prop :=
  (∀ (c : Instr) (id : Byte) (v : Word) (s : State), c.setOf = some (id, v) →
    s.link.frame = some { taken := none } → s.gate.opState ≠ .recovering →
    s.gate.opState ≠ .formatting →
    (settingOf id = none → exec c s = .next (s.answered 3 .badReq [])) ∧
    (∀ x, settingOf id = some x → x.accepts v = false →
      exec c s = .next (s.answered 3 .badReq [])) ∧
    (∀ x, settingOf id = some x → x.accepts v = true → ∃ t : State, exec c s = .next t ∧
      t.frameResult = some .done ∧ t.frameResponse = some [] ∧ x.read t = v ∧
      (∀ y, y ≠ x → y.read t = y.read s) ∧
      (x.read s = v → t = s.answered 3 .done []) ∧
      (∀ n : Fin 4, (t.watch.get n).hits = (s.watch.get n).hits ∧
        (t.watch.get n).capture = (s.watch.get n).capture) ∧
      (x ≠ .faultPolarity → x ≠ .freezeMask → x ≠ .scope → x ≠ .enables → x ≠ .attnMode →
        t = { s with settings := t.settings, watch := t.watch, link := t.link }))) ∧
  (∀ (v : Word),
    (Setting.clockRate.accepts v = true ↔ 8 ≤ v.toNat ∧ v.toNat ≤ 48) ∧
    (Setting.waitLimit.accepts v = true ↔ 1 ≤ v.toNat ∧ v.toNat ≤ 1023) ∧
    (Setting.streakLimit.accepts v = true ↔ 1 ≤ v.toNat ∧ v.toNat ≤ 15) ∧
    (Setting.inputFilter.accepts v = true ↔ v.toNat ≤ 15) ∧
    (Setting.attnWidth.accepts v = true ↔ v = 1 ∨ v = 2 ∨ v = 4 ∨ v = 8) ∧
    (Setting.enables.accepts v = true ↔ v.toNat ≤ 0x1FFF) ∧
    Setting.autoInterval.accepts v = true ∧
    (∀ x ∈ [Setting.faultPolarity, .scope, .verify, .attnMode],
      x.accepts v = true ↔ v.toNat ≤ 1) ∧
    (∀ x ∈ [Setting.freezeMask, .pfailAction, .faultAction, .watchAction],
      x.accepts v = true ↔ v.toNat ≤ 3) ∧
    (∀ n : Fin 4,
      (∀ f ∈ [WatchField.lowUpper, .highUpper],
        (Setting.watch n f).accepts v = true ↔ v.toNat ≤ 0x1F) ∧
      (∀ f ∈ [WatchField.lowLower, .highLower, .value, .mask],
        (Setting.watch n f).accepts v = true) ∧
      ((Setting.watch n .direction).accepts v = true ↔ v.toNat ≤ 1) ∧
      ((Setting.watch n .cls).accepts v = true ↔ v.toNat ≤ 4) ∧
      ((Setting.watch n .enables).accepts v = true ↔ v.toNat ≤ 15) ∧
      ((Setting.watch n .action).accepts v = true ↔ v.toNat ≤ 2))) ∧
  (∀ (s : State) (c : Settings), c = s.settings →
    Setting.clockRate.read s = c.clockRate ∧ Setting.waitLimit.read s = c.waitLimit ∧
    Setting.streakLimit.read s = c.streakLimit ∧ Setting.inputFilter.read s = c.inputFilter ∧
    Setting.faultPolarity.read s = (match c.faultPolarity with | .highActive => 0 | .lowActive => 1) ∧
    Setting.freezeMask.read s =
      (if c.pfailEnabled then 1 else 0) + (if c.faultEnabled then 2 else 0) ∧
    (∀ x a, (x, a) ∈ [(Setting.pfailAction, c.pfailAction), (.faultAction, c.faultAction),
        (.watchAction, c.watchAction)] →
      x.read s = (match a with | .none => 0 | .sealGroup => 1 | .stop => 2 | .rollback => 3)) ∧
    Setting.scope.read s = (match c.scope with | .journaledOnly => 0 | .allWrites => 1) ∧
    Setting.verify.read s = (if c.verify then 1 else 0) ∧
    Setting.autoInterval.read s = c.autoInterval ∧
    Setting.attnMode.read s = (match c.attnMode with | .level => 0 | .pulse => 1) ∧
    Setting.attnWidth.read s = c.attnWidth ∧ Setting.enables.read s = c.enables.zeroExtend 16 ∧
    (∀ (n : Fin 4) (w : WatchSettings), w = (s.watch.get n).settings →
      (Setting.watch n .lowUpper).read s = BitVec.ofNat 16 (w.low.toNat / 65536) ∧
      (Setting.watch n .lowLower).read s = BitVec.ofNat 16 (w.low.toNat % 65536) ∧
      (Setting.watch n .highUpper).read s = BitVec.ofNat 16 (w.high.toNat / 65536) ∧
      (Setting.watch n .highLower).read s = BitVec.ofNat 16 (w.high.toNat % 65536) ∧
      (Setting.watch n .direction).read s = (match w.direction with | .read => 0 | .write => 1) ∧
      (Setting.watch n .value).read s = w.value ∧ (Setting.watch n .mask).read s = w.mask ∧
      (Setting.watch n .cls).read s = (match w.cls with
        | .direct => 0 | .journaled => 1 | .guarded => 2 | .closed => 3 | .reserved => 4) ∧
      (Setting.watch n .enables).read s = w.enables.zeroExtend 16 ∧
      (Setting.watch n .action).read s = (match w.action with
        | .note => 0 | .refuse => 1 | .freeze => 2))) ∧
  (∀ (id : Byte) (n : Fin 4),
    (id.toNat = 0x20 + 16 * n.val → settingOf id = some (.watch n .lowUpper)) ∧
    (id.toNat = 0x21 + 16 * n.val → settingOf id = some (.watch n .lowLower)) ∧
    (id.toNat = 0x22 + 16 * n.val → settingOf id = some (.watch n .highUpper)) ∧
    (id.toNat = 0x23 + 16 * n.val → settingOf id = some (.watch n .highLower)) ∧
    (id.toNat = 0x24 + 16 * n.val → settingOf id = some (.watch n .direction)) ∧
    (id.toNat = 0x25 + 16 * n.val → settingOf id = some (.watch n .value)) ∧
    (id.toNat = 0x26 + 16 * n.val → settingOf id = some (.watch n .mask)) ∧
    (id.toNat = 0x27 + 16 * n.val → settingOf id = some (.watch n .cls)) ∧
    (id.toNat = 0x28 + 16 * n.val → settingOf id = some (.watch n .enables)) ∧
    (id.toNat = 0x29 + 16 * n.val → settingOf id = some (.watch n .action)) ∧
    (0x29 + 16 * n.val < id.toNat → id.toNat < 0x30 + 16 * n.val → settingOf id = none) ∧
    (id.toNat = 0 ∨ (0x10 ≤ id.toNat ∧ id.toNat ≤ 0x1F) ∨ 0x5A ≤ id.toNat →
      settingOf id = none)) ∧
  settingOf 0x01#8 = some .clockRate ∧ settingOf 0x02#8 = some .waitLimit ∧
  settingOf 0x03#8 = some .streakLimit ∧ settingOf 0x04#8 = some .inputFilter ∧
  settingOf 0x05#8 = some .faultPolarity ∧ settingOf 0x06#8 = some .freezeMask ∧
  settingOf 0x07#8 = some .pfailAction ∧ settingOf 0x08#8 = some .faultAction ∧
  settingOf 0x09#8 = some .watchAction ∧ settingOf 0x0A#8 = some .scope ∧
  settingOf 0x0B#8 = some .verify ∧ settingOf 0x0C#8 = some .autoInterval ∧
  settingOf 0x0D#8 = some .attnMode ∧ settingOf 0x0E#8 = some .attnWidth ∧
  settingOf 0x0F#8 = some .enables

/-- What a SET does beside its value: FAULT POLARITY ends the run of FAULT; the freeze mask takes a newly
enabled ACTIVE line as its trigger; the freeze scope refuses a waiting write that the closed gate now
covers; EVENT ENABLES and ATTN MODE reach ATTN. That a request during a pulse puts its end one width later, also
where that is before the end already timed, is the model's choice (log 40). -/
def Obligations.SetEffects : Prop :=
  ∀ (s : State) (v : Word), s.link.frame = some { taken := none } →
    s.gate.opState ≠ .recovering → s.gate.opState ≠ .formatting →
    (v = 0 ∧ s.settings.faultPolarity = .lowActive ∨ v = 1 ∧ s.settings.faultPolarity = .highActive →
      exec (.setFaultPolarity v) s = .next (State.answered { s with
        settings := { s.settings with faultPolarity := if v = 0 then .highActive else .lowActive }
        gate := { s.gate with fault :=
          { s.gate.fault with active := false, run := none, qualified := false } } } 3 .done [])) ∧
    (∀ m, v.toNat ≤ 3 → m = { s with settings := { s.settings with
        pfailEnabled := v.getLsbD 0, faultEnabled := v.getLsbD 1 } } →
      (s.settings.pfailEnabled = false → v.getLsbD 0 = true → s.gate.pfail.active = true →
        s.settings.faultEnabled = true ∨ v.getLsbD 1 = false ∨ s.gate.fault.active = false →
        exec (.setFreezeMask v) s =
          .next ((trigger .pfail s.settings.pfailAction m).answered 3 .done [])) ∧
      (s.settings.faultEnabled = false → v.getLsbD 1 = true → s.gate.fault.active = true →
        s.settings.pfailEnabled = true ∨ v.getLsbD 0 = false ∨ s.gate.pfail.active = false →
        exec (.setFreezeMask v) s =
          .next ((trigger .fault s.settings.faultAction m).answered 3 .done [])) ∧
      (s.settings.pfailEnabled = true ∨ v.getLsbD 0 = false ∨ s.gate.pfail.active = false →
        s.settings.faultEnabled = true ∨ v.getLsbD 1 = false ∨ s.gate.fault.active = false →
        exec (.setFreezeMask v) s = .next (m.answered 3 .done []))) ∧
    (∀ c, v = 1 → s.settings.scope = .journaledOnly → s.gate.opState = .frozen →
      s.up.cycle = some c → c.phase = .waitingWrite → c.cls = .direct → c.direction = .write →
      ∃ t : State, exec (.setFreezeScope v) s = .next t ∧ t.settings.scope = .allWrites ∧
        State.Refuses { s with settings := t.settings, link := t.link } t c.addr .write .gate c.tag) ∧
    (v.toNat ≤ 1 → (∀ c, s.up.cycle = some c → c.phase ≠ .waitingWrite ∨ s.gate.opState ≠ .frozen ∨
        (c.cls ≠ .journaled ∧ (c.cls ≠ .direct ∨ v = 0))) →
      exec (.setFreezeScope v) s = .next (State.answered { s with settings := { s.settings with
        scope := if v = 0 then .journaledOnly else .allWrites } } 3 .done [])) ∧
    (v.toNat ≤ 0x1FFF → v ≠ s.settings.enables.zeroExtend 16 →
      exec (.setEventEnables v) s = .next (State.answered { s with
        settings := { s.settings with enables := v.extractLsb' 0 13 }
        events := match s.settings.attnMode with
          | .level =>
            { s.events with attn := decide (s.events.flags &&& v.extractLsb' 0 13 ≠ 0) }
          | .pulse =>
            if v.extractLsb' 0 13 &&& ~~~ s.settings.enables &&& s.events.flags ≠ 0 then
              { s.events with attn := true, pulse := some s.settings.attnWidth.toNat }
            else s.events } 3 .done [])) ∧
    (v = 0 → s.settings.attnMode = .pulse →
      exec (.setAttnMode v) s = .next (State.answered { s with
        settings := { s.settings with attnMode := .level }
        events := { s.events with
          pulse := none
          attn := decide (s.events.flags &&& s.settings.enables ≠ 0) } } 3 .done [])) ∧
    (v = 1 → s.settings.attnMode = .level →
      exec (.setAttnMode v) s = .next (State.answered { s with
        settings := { s.settings with attnMode := .pulse }
        events := { s.events with pulse := none, attn := false } } 3 .done []))

/-! ### Commits and tables -/

/-- COMMIT and the claim of a pending commit by the first step that fits: COMMIT answers UNFORMATTED or
NOT_PERMITTED and changes nothing, merges into a pending commit, answers EMPTY with nothing to commit,
makes a token, or holds the request when the queue is full; the requests of the other sources take the same
steps; a claim makes its token or clears the pending commit. A COMMIT finds the claim of a waiting write on a
free entry made, which the model makes with it where the answer is DONE (log 13). That a failing claim restarts
only a stopped auto-commit count is the model's reading (log 26), and that the row of the claim changes nothing
with none to make is too (log 3). -/
def Obligations.CommitSteps : Prop :=
  (∀ s : State, (s.tableReady = true ↔ ∃ x, s.region.state = .ready x) ∧
    s.commitStep =
      (if s.gate.opState = .recovering ∨ s.gate.opState = .formatting then .refusedBy .busy
      else if s.gate.opState = .unformatted then .refusedBy .unformatted
      else if s.CommitBarred then .refusedBy .notPermitted
      else if s.intake.pendingCommit = true then .merged
      else if ¬ s.HasWork then .nothing
      else if 16 ≤ s.queue.entries.length then .held
      else .token) ∧
    (s.commitStep = .token → takeCommit s = makeToken s) ∧
    (s.intake.pendingCommit = false → s.MakesToken (makeToken s)) ∧
    (s.commitStep = .held →
      takeCommit s = { s with intake := { s.intake with pendingCommit := true } }) ∧
    (s.commitStep ≠ .token → s.commitStep ≠ .held → takeCommit s = s)) ∧
  (∀ s u : State, s.link.frame = some { taken := none } → exec .waitingWriteClaim s = .next u →
    (s.gate.opState = .unformatted → exec .commit s = .next (s.answered 0 .unformatted [])) ∧
    (s.gate.opState = .running ∨ s.gate.opState = .frozen →
      (u.CommitBarred → exec .commit s = .next (s.answered 0 .notPermitted [])) ∧
      (¬u.CommitBarred → u.intake.pendingCommit = true →
        exec .commit s = .next (s.answered 0 .done [])) ∧
      (¬u.CommitBarred → u.intake.pendingCommit = false → ¬u.HasWork →
        exec .commit s = .next (s.answered 0 .empty [])) ∧
      (¬u.CommitBarred → u.intake.pendingCommit = false → u.HasWork → u.queue.entries.length < 16 →
        ∃ t : State, exec .commit s = .next (t.answered 0 .done []) ∧ u.MakesToken t) ∧
      (¬u.CommitBarred → u.intake.pendingCommit = false → u.HasWork → 16 ≤ u.queue.entries.length →
        exec .commit s = .next (State.answered
          { u with intake := { u.intake with pendingCommit := true } } 0 .done [])))) ∧
  (∀ s : State,
    (s.intake.pendingCommit = true → s.queue.entries.length < 16 →
      (¬s.CommitBarred → s.HasWork →
        ∃ t : State, exec .pendingCommitClaim s = .next t ∧ s.MakesToken t) ∧
      (s.CommitBarred ∨ ¬s.HasWork →
        exec .pendingCommitClaim s = .next { s with intake := { s.intake with
          pendingCommit := false
          auto := if s.intake.dirty = true ∧ s.intake.auto.running = false ∧
              s.intake.interval ≠ 0 then
            { count := 0, running := true, due := false } else s.intake.auto } })) ∧
    (s.intake.pendingCommit = false ∨ 16 ≤ s.queue.entries.length →
      exec .pendingCommitClaim s = .next s))

/-- LOAD TABLE by the first step that fits: it answers UNFORMATTED, NOT_PERMITTED, BADREQ or BUSY and
changes nothing, or queues a TABLE token for the base, discarding a READY table. It finds the claim of a
waiting write on a free entry made, which the model makes with it where the answer is DONE (log 13). -/
def Obligations.LoadTableSteps : Prop :=
  ∀ (s u : State) (b : BitVec 24) (base : Long) (bad : Prop), s.link.frame = some { taken := none } →
    exec .waitingWriteClaim s = .next u → base = b.zeroExtend 32 →
    (bad ↔ base.toNat % 8 ≠ 0 ∨ s.top - 32 ≤ base.toNat ∨
      (s.engine.durable.slotCount ≠ 0 ∧ s.engine.durable.windowBase.toNat ≤ base.toNat ∧
        base.toNat ≤
          s.engine.durable.windowBase.toNat + 16 * s.engine.durable.slotCount.toNat - 1)) →
    (s.gate.opState = .recovering ∨ s.gate.opState = .formatting →
      exec (.loadTable b) s = .next (s.answered 3 .busy [])) ∧
    (s.gate.opState = .unformatted →
      exec (.loadTable b) s = .next (s.answered 3 .unformatted [])) ∧
    (s.gate.opState = .running ∨ s.gate.opState = .frozen →
      (s.gate.causes.anchor = true → exec (.loadTable b) s = .next (s.answered 3 .notPermitted [])) ∧
      (s.gate.causes.anchor = false → bad →
        exec (.loadTable b) s = .next (s.answered 3 .badReq [])) ∧
      (s.gate.causes.anchor = false → ¬bad →
        (∃ p, s.region.state = .pending p) ∨ 16 ≤ u.queue.entries.length ∨
          u.intake.pendingCommit = true →
        exec (.loadTable b) s = .next (s.answered 3 .busy [])) ∧
      (s.gate.causes.anchor = false → ¬bad →
        s.region.state = .none ∨ (∃ x, s.region.state = .ready x) →
        u.queue.entries.length < 16 → u.intake.pendingCommit = false →
        exec (.loadTable b) s = .next (State.answered { u with
          queue := { u.queue with entries := u.queue.entries ++ [.tableToken base] }
          region := { u.region with state := .pending base } } 3 .done [])))

/-! ### Freeze, thaw and rollback -/

/-- What each cause adds, the order of the actions by strength, and the origin of an order. A trigger in
RUNNING adds its cause, closes the gate and takes its action whatever it is; in FROZEN it adds its cause and
takes an action stronger than the level; in any other state it is not taken. A waiting write that the closed
gate covers is refused, and claims no entry ahead of the action SEAL. The commit request of that action
finds the claim of any other waiting write on a free entry made, which the model makes with it (log 13). -/
def Obligations.TriggersTaken : Prop :=
  (∀ c : CauseSet, c.add .pfail = { c with pfail := true } ∧ c.add .fault = { c with fault := true } ∧
    c.add .watch = { c with watch := true } ∧ c.add .soft = { c with soft := true } ∧
    c.add .jfull = { c with jfull := true } ∧ c.add .verify = { c with verify := true } ∧
    c.add .table = { c with table := true } ∧ c.add .anchor = { c with anchor := true } ∧
    c.add .exhausted = { c with exhausted := true } ∧
    (c.any = true ↔ c.pfail = true ∨ c.fault = true ∨ c.watch = true ∨ c.soft = true ∨
      c.jfull = true ∨ c.verify = true ∨ c.table = true ∨ c.anchor = true ∨ c.exhausted = true)) ∧
  (Action.none.strength < Action.sealGroup.strength ∧
    Action.sealGroup.strength < Action.stop.strength ∧
    Action.stop.strength < Action.rollback.strength) ∧
  (Cause.pfail.origin = .pfail ∧ Cause.fault.origin = .fault ∧ Cause.watch.origin = .watch ∧
    Cause.soft.origin = .soft ∧ Cause.jfull.origin = .jfull ∧ Cause.verify.origin = .verify) ∧
  ∀ (s t : State) (cause : Cause) (a : Action) (covered : Prop), t = trigger cause a s →
    (covered ↔ ∃ c, s.up.cycle = some c ∧ c.phase = .waitingWrite ∧
      (c.cls = .journaled ∨ (c.cls = .direct ∧ s.settings.scope = .allWrites))) →
    (∀ u, a = .sealGroup → ¬covered → exec .waitingWriteClaim s = .next u →
      s.gate.opState = .running ∨
        (s.gate.opState = .frozen ∧ s.gate.level.strength < a.strength) →
      t = trigger cause a u) ∧
    (a ≠ .sealGroup ∨ covered ∨ exec .waitingWriteClaim s = .next s →
      (s.gate.opState ≠ .running → s.gate.opState ≠ .frozen → t = s) ∧
      (s.gate.opState = .frozen → a.strength ≤ s.gate.level.strength →
        t = { s with gate := { s.gate with causes := s.gate.causes.add cause } }) ∧
      (s.gate.opState = .running ∨ s.gate.opState = .frozen →
        t.gate.opState = .frozen ∧ t.gate.causes = s.gate.causes.add cause ∧
        t.gate.pfail = s.gate.pfail ∧ t.gate.fault = s.gate.fault ∧
        t.straps = s.straps ∧ t.link = s.link ∧ t.time = s.time ∧
        t.mem = s.mem ∧ t.port = s.port ∧ t.watch = s.watch ∧ t.settings = s.settings ∧
        t.engine.work = s.engine.work ∧ t.engine.closed = s.engine.closed ∧
        t.engine.count = s.engine.count ∧ t.engine.chain = s.engine.chain ∧
        t.engine.durable = s.engine.durable) ∧
      (s.gate.opState = .running ∨
          (s.gate.opState = .frozen ∧ s.gate.level.strength < a.strength) →
        t.gate.level = a ∧
        (a = .none → t.queue = s.queue ∧ t.intake = s.intake ∧ t.engine = s.engine ∧
          t.region = s.region ∧ t.gate.order = s.gate.order) ∧
        (a = .sealGroup → (s.gate.causes.add cause).anchor = true ∨
            (s.gate.causes.add cause).exhausted = true →
          t.queue = s.queue ∧ t.intake = s.intake ∧ t.region = s.region ∧ t.engine = s.engine ∧
          t.gate.order = s.gate.order) ∧
        (a = .sealGroup → (s.gate.causes.add cause).anchor = false →
          (s.gate.causes.add cause).exhausted = false →
          t.queue = (takeCommit s).queue ∧ t.intake = (takeCommit s).intake ∧
          t.region = (takeCommit s).region ∧ t.engine = s.engine ∧
          t.gate.order = s.gate.order) ∧
        (a = .stop ∨ a = .rollback → s.Stops t ∧ t.region = s.region) ∧
        (a = .stop → t.gate.order = s.gate.order) ∧
        (a = .rollback → t.gate.order = if s.gate.order ≠ none ∨ s.rollingBack = true then
          s.gate.order else some cause.origin)) ∧
      (s.gate.opState = .frozen → t.up = s.up ∧ t.events = s.events ∧ t.gate.frz = s.gate.frz) ∧
      (s.gate.opState = .running → t.gate.frz = true ∧ t.flagged .froze = true ∧
        (∀ c, s.up.cycle = some c → c.phase = .waitingWrite →
          c.cls = .journaled ∨ (c.cls = .direct ∧ s.settings.scope = .allWrites) →
          State.Refuses { s with intake := t.intake, queue := t.queue, engine := t.engine
                                 region := t.region, gate := t.gate }
            t c.addr c.direction .gate c.tag ∧
          s.FlagsGain t (fun e => decide (e = .froze) || decide (e = .refused))) ∧
        ((∀ c, s.up.cycle = some c → c.phase ≠ .waitingWrite ∨
            (c.cls ≠ .journaled ∧ (c.cls ≠ .direct ∨ s.settings.scope = .journaledOnly))) →
          t.up = s.up ∧ s.FlagsGain t (fun e => decide (e = .froze)) ∧
          t.events.counters = s.events.counters ∧ t.events.refusal = s.events.refusal ∧
          t.events.restore = s.events.restore)))

/-- FREEZE and ROLLBACK by the conditions of their rows: BUSY, NOTFROZEN or BADREQ change nothing; FREEZE
is the trigger with cause SOFT, which closes the gate, adds the cause and places no second order; ROLLBACK
stops as a trigger does, places an order of origin COMMAND and raises the level to ROLLBACK, and adds no
cause. -/
def Obligations.GateCommands : Prop :=
  ∀ s : State, s.link.frame = some { taken := none } →
    (∀ b : Byte,
      (s.gate.opState = .recovering ∨ s.gate.opState = .formatting ∨ s.gate.opState = .unformatted →
        exec (.freeze b) s = .next (s.answered 1 .busy [])) ∧
      (s.gate.opState = .running ∨ s.gate.opState = .frozen →
        (3 < b.toNat → exec (.freeze b) s = .next (s.answered 1 .badReq [])) ∧
        (∀ a, (b = 0 ∧ a = .none) ∨ (b = 1 ∧ a = .sealGroup) ∨ (b = 2 ∧ a = .stop) ∨
            (b = 3 ∧ a = .rollback) →
          ∃ t : State, t = trigger .soft a s ∧ exec (.freeze b) s = .next (t.answered 1 .done []) ∧
            t.gate.opState = .frozen ∧ t.gate.causes = { s.gate.causes with soft := true } ∧
            (s.gate.order ≠ none ∨ s.rollingBack = true → t.gate.order = s.gate.order) ∧
            (a = .rollback → s.gate.opState = .running ∨ s.gate.level ≠ .rollback →
              s.gate.order = none → s.rollingBack = false → t.gate.order = some .soft)))) ∧
    (s.gate.opState = .recovering ∨ s.gate.opState = .formatting →
      exec .rollback s = .next (s.answered 0 .busy [])) ∧
    (s.gate.opState = .unformatted ∨ s.gate.opState = .running →
      exec .rollback s = .next (s.answered 0 .notFrozen [])) ∧
    (s.gate.opState = .frozen → s.gate.order ≠ none ∨ s.rollingBack = true →
      exec .rollback s = .next (s.answered 0 .busy [])) ∧
    (s.gate.opState = .frozen → s.gate.order = none → s.rollingBack = false →
      ∃ t : State, exec .rollback s = .next (t.answered 0 .done []) ∧ s.Stops t ∧
        t.gate = { s.gate with order := some .command, level := .rollback } ∧
        t = { s with gate := t.gate, queue := t.queue, intake := t.intake, engine := t.engine })

/-- THAW by the first row whose condition holds; DONE empties the cause set, returns the level to NONE,
sets RUNNING and negates FRZ, and changes nothing else; every other result changes nothing. That a line whose
last sample is at its active level answers TRIGGER_ACTIVE also in a short bounce behind a release is the
model's choice (log 37). -/
def Obligations.ThawRows : Prop :=
  ∀ (s : State) (r : Result), s.link.frame = some { taken := none } →
    r = (if s.gate.opState = .recovering ∨ s.gate.opState = .formatting then .busy
      else if s.gate.opState ≠ .frozen then .notFrozen
      else if s.gate.order ≠ none ∨ s.rollingBack = true then .busy
      else if s.gate.causes.anchor = true ∨ s.gate.causes.exhausted = true then .notPermitted
      else if s.gate.causes.table = true then .noTable
      else if (s.gate.causes.pfail = true ∧ s.gate.pfail.last = some false) ∨
          (s.gate.causes.fault = true ∧
            s.gate.fault.last = some (decide (s.settings.faultPolarity = .highActive))) then
        .triggerActive
      else if s.engine.abandoned ≠ none then .openGroup
      else .done) →
    (r ≠ .done → exec .thaw s = .next (s.answered 0 r [])) ∧
    (r = .done → exec .thaw s = .next (State.answered { s with gate := { s.gate with
      opState := .running, frz := false, ready := true, level := .none
      causes :=
        { pfail := false, fault := false, watch := false, soft := false, jfull := false
          verify := false, table := false, anchor := false, exhausted := false } } } 0 .done []))

/-! ### Format and clears -/

/-- FORMAT by the first row whose condition holds; DONE enters FORMATTING, empties the cause set and the
level, drops every table, clears Intake but not I, and begins by reading the anchors. That a claim still
to be taken answers BUSY is the model's choice (log 13). -/
def Obligations.FormatRows : Prop :=
  ∀ (s : State) (b : BitVec 24) (n : Word) (base : Long) (allowed bad busy : Prop),
    s.link.frame = some { taken := none } → base = b.zeroExtend 32 →
    (allowed ↔ s.gate.opState = .unformatted ∨
      (s.gate.opState = .frozen ∧ s.gate.causes.anchor = true) ∨
      ((s.gate.opState = .running ∨ s.gate.opState = .frozen) ∧ s.straps.maint = true)) →
    (bad ↔ base.toNat % 16 ≠ 0 ∨ n.toNat < 16 ∨ s.top - 32 ≤ base.toNat + 16 * n.toNat - 1) →
    (busy ↔ s.queue.entries ≠ [] ∨ s.engine.work ≠ .idle ∨ s.gate.order ≠ none ∨
      s.intake.pendingCommit = true ∨ ∃ c, s.up.cycle = some c ∧ c.phase = .waitingWrite) →
    (s.gate.opState = .recovering ∨ s.gate.opState = .formatting →
      exec (.format b n) s = .next (s.answered 5 .busy [])) ∧
    (s.gate.opState ≠ .recovering → s.gate.opState ≠ .formatting →
      (¬allowed → exec (.format b n) s = .next (s.answered 5 .notPermitted [])) ∧
      (allowed → bad → exec (.format b n) s = .next (s.answered 5 .badReq [])) ∧
      (allowed → ¬bad → busy → exec (.format b n) s = .next (s.answered 5 .busy [])) ∧
      (allowed → ¬bad → ¬busy → exec (.format b n) s = .next (State.answered { s with
        gate := { s.gate with
          opState := .formatting, frz := false, ready := true, level := .none
          causes :=
            { pfail := false, fault := false, watch := false, soft := false, jfull := false
              verify := false, table := false, anchor := false, exhausted := false } }
        engine := { s.engine with
          abandoned := none
          work := .formatting { base := base, slots := n, formatCount := 0, phase := .anchors [] } }
        region := { s.region with active := none, retiring := none, state := .none }
        intake := { s.intake with dirty := false, filter := [], removed := []
                                  auto := { count := 0, running := false, due := false } } }
        5 .done [])))

/-- The bit positions of the thirteen events, and how counts saturate. An event that is raised sets its flag; in
LEVEL mode ATTN then follows the enabled flags; in PULSE mode the event asserts ATTN and times the pulse if its
flag was clear and is enabled, and makes no request otherwise. CLEAR EVENTS clears the flags of its
mask and lets ATTN follow; CLEAR COUNTERS zeroes the eight counters; CLEAR WATCH empties the hit count and the
capture of one unit, or answers BADREQ for a unit above 3. That a request during a pulse puts its end one width
later, also where that is before the end already timed, is the model's choice (log 40). -/
def Obligations.ClearCommands : Prop :=
  (Event.groupSealed.bit = 0 ∧ Event.voided.bit = 1 ∧ Event.froze.bit = 2 ∧
    Event.tableReady.bit = 3 ∧ Event.tableError.bit = 4 ∧ Event.refused.bit = 5 ∧
    Event.waitOut.bit = 6 ∧ (∀ n : Fin 4, (Event.watch n).bit = 7 + n.val) ∧
    Event.recovered.bit = 11 ∧ Event.formatted.bit = 12) ∧
  (∀ (w : Word) (n : Nat), (w ≠ 0xFFFF#16 → satInc w = w + 1) ∧ satInc 0xFFFF#16 = 0xFFFF#16 ∧
    (satAdd w n).toNat = min (w.toNat + n) 65535) ∧
  (∀ (ev : Events) (cfg : Settings) (e : Event) (fs : BitVec 13), fs = (ev.raise cfg e).flags →
    (∀ f : Event, fs.getLsbD f.bit = (ev.flags.getLsbD f.bit || decide (f = e))) ∧
    (cfg.attnMode = .level →
      ev.raise cfg e = { ev with flags := fs, attn := decide (fs &&& cfg.enables ≠ 0) }) ∧
    (cfg.attnMode = .pulse → ev.flags.getLsbD e.bit = false → cfg.enables.getLsbD e.bit = true →
      ev.raise cfg e = { ev with flags := fs, attn := true, pulse := some cfg.attnWidth.toNat }) ∧
    (cfg.attnMode = .pulse → ev.flags.getLsbD e.bit = true ∨ cfg.enables.getLsbD e.bit = false →
      ev.raise cfg e = { ev with flags := fs })) ∧
  (∀ (e : Event) (s : State), raise e s = { s with events := s.events.raise s.settings e }) ∧
  ∀ s : State, s.link.frame = some { taken := none } →
    (s.gate.opState = .recovering ∨ s.gate.opState = .formatting →
      ∀ u : Byte, exec (.clearWatch u) s = .next (s.answered 1 .busy [])) ∧
    (s.gate.opState ≠ .recovering → s.gate.opState ≠ .formatting →
      (∀ m : Word, ∃ t : State, exec (.clearEvents m) s = .next (t.answered 2 .done []) ∧
        (∀ e : Event, t.flagged e = (s.flagged e && !m.getLsbD e.bit)) ∧
        (s.settings.attnMode = .level →
          t.events.attn = decide (t.events.flags &&& s.settings.enables ≠ 0) ∧
          t.events.pulse = s.events.pulse) ∧
        (s.settings.attnMode = .pulse →
          if s.events.flags &&& m.extractLsb' 0 13 &&& s.settings.enables ≠ 0 ∧
              t.events.flags &&& s.settings.enables ≠ 0 then
            t.events.attn = true ∧ t.events.pulse = some s.settings.attnWidth.toNat
          else t.events.attn = s.events.attn ∧ t.events.pulse = s.events.pulse) ∧
        t = { s with events := { s.events with flags := t.events.flags, attn := t.events.attn
                                               pulse := t.events.pulse } }) ∧
      exec .clearCounters s = .next (State.answered { s with events := { s.events with counters :=
        { classRefusals := 0, gateRefusals := 0, watchRefusals := 0, waitTimeouts := 0
          refusedReads := 0, rejournaled := 0, sealedGroups := 0, voidedGroups := 0 } } }
        0 .done []) ∧
      (∀ u : Byte, 3 < u.toNat → exec (.clearWatch u) s = .next (s.answered 1 .badReq [])) ∧
      (∀ (u : Byte) (n : Fin 4), u.toNat = n.val → ∃ t : State,
        exec (.clearWatch u) s = .next (t.answered 1 .done []) ∧
        (t.watch.get n).hits = 0 ∧ (t.watch.get n).capture = none ∧
        (t.watch.get n).settings = (s.watch.get n).settings ∧
        (∀ m : Fin 4, m ≠ n → t.watch.get m = s.watch.get m) ∧ t = { s with watch := t.watch }))

end
end

