-- ==== Sys2Proof/Laws/State.lean ====
section
/-! SUPPORT. What each update of one part of the state does to every field. -/

namespace Sys2Proof.Machine.State

variable (s : State)

@[simp] theorem setUp_straps (x) : (s.setUp x).straps = s.straps := rfl
@[simp] theorem setUp_up (x) : (s.setUp x).up = x := rfl
@[simp] theorem setUp_port (x) : (s.setUp x).port = s.port := rfl
@[simp] theorem setUp_intake (x) : (s.setUp x).intake = s.intake := rfl
@[simp] theorem setUp_queue (x) : (s.setUp x).queue = s.queue := rfl
@[simp] theorem setUp_engine (x) : (s.setUp x).engine = s.engine := rfl
@[simp] theorem setUp_region (x) : (s.setUp x).region = s.region := rfl
@[simp] theorem setUp_gate (x) : (s.setUp x).gate = s.gate := rfl
@[simp] theorem setUp_watch (x) : (s.setUp x).watch = s.watch := rfl
@[simp] theorem setUp_settings (x) : (s.setUp x).settings = s.settings := rfl
@[simp] theorem setUp_events (x) : (s.setUp x).events = s.events := rfl
@[simp] theorem setUp_link (x) : (s.setUp x).link = s.link := rfl
@[simp] theorem setUp_time (x) : (s.setUp x).time = s.time := rfl
@[simp] theorem setUp_mem (x) : (s.setUp x).mem = s.mem := rfl
@[simp] theorem setUp_free (x) : (s.setUp x).free = s.free := rfl
@[simp] theorem setUp_pending (x) : (s.setUp x).pending = s.pending := rfl
@[simp] theorem setUp_same : s.setUp s.up = s := rfl

@[simp] theorem setPort_straps (x) : (s.setPort x).straps = s.straps := rfl
@[simp] theorem setPort_up (x) : (s.setPort x).up = s.up := rfl
@[simp] theorem setPort_port (x) : (s.setPort x).port = x := rfl
@[simp] theorem setPort_intake (x) : (s.setPort x).intake = s.intake := rfl
@[simp] theorem setPort_queue (x) : (s.setPort x).queue = s.queue := rfl
@[simp] theorem setPort_engine (x) : (s.setPort x).engine = s.engine := rfl
@[simp] theorem setPort_region (x) : (s.setPort x).region = s.region := rfl
@[simp] theorem setPort_gate (x) : (s.setPort x).gate = s.gate := rfl
@[simp] theorem setPort_watch (x) : (s.setPort x).watch = s.watch := rfl
@[simp] theorem setPort_settings (x) : (s.setPort x).settings = s.settings := rfl
@[simp] theorem setPort_events (x) : (s.setPort x).events = s.events := rfl
@[simp] theorem setPort_link (x) : (s.setPort x).link = s.link := rfl
@[simp] theorem setPort_time (x) : (s.setPort x).time = s.time := rfl
@[simp] theorem setPort_mem (x) : (s.setPort x).mem = s.mem := rfl
@[simp] theorem setPort_free (x) : (s.setPort x).free = s.free := rfl
@[simp] theorem setPort_pending (x) : (s.setPort x).pending = s.pending := rfl
@[simp] theorem setPort_same : s.setPort s.port = s := rfl

@[simp] theorem setIntake_straps (x) : (s.setIntake x).straps = s.straps := rfl
@[simp] theorem setIntake_up (x) : (s.setIntake x).up = s.up := rfl
@[simp] theorem setIntake_port (x) : (s.setIntake x).port = s.port := rfl
@[simp] theorem setIntake_intake (x) : (s.setIntake x).intake = x := rfl
@[simp] theorem setIntake_queue (x) : (s.setIntake x).queue = s.queue := rfl
@[simp] theorem setIntake_engine (x) : (s.setIntake x).engine = s.engine := rfl
@[simp] theorem setIntake_region (x) : (s.setIntake x).region = s.region := rfl
@[simp] theorem setIntake_gate (x) : (s.setIntake x).gate = s.gate := rfl
@[simp] theorem setIntake_watch (x) : (s.setIntake x).watch = s.watch := rfl
@[simp] theorem setIntake_settings (x) : (s.setIntake x).settings = s.settings := rfl
@[simp] theorem setIntake_events (x) : (s.setIntake x).events = s.events := rfl
@[simp] theorem setIntake_link (x) : (s.setIntake x).link = s.link := rfl
@[simp] theorem setIntake_time (x) : (s.setIntake x).time = s.time := rfl
@[simp] theorem setIntake_mem (x) : (s.setIntake x).mem = s.mem := rfl
@[simp] theorem setIntake_free (x) : (s.setIntake x).free = s.free := rfl
@[simp] theorem setIntake_pending (x) : (s.setIntake x).pending = s.pending := rfl
@[simp] theorem setIntake_same : s.setIntake s.intake = s := rfl

@[simp] theorem setQueue_straps (x) : (s.setQueue x).straps = s.straps := rfl
@[simp] theorem setQueue_up (x) : (s.setQueue x).up = s.up := rfl
@[simp] theorem setQueue_port (x) : (s.setQueue x).port = s.port := rfl
@[simp] theorem setQueue_intake (x) : (s.setQueue x).intake = s.intake := rfl
@[simp] theorem setQueue_queue (x) : (s.setQueue x).queue = x := rfl
@[simp] theorem setQueue_engine (x) : (s.setQueue x).engine = s.engine := rfl
@[simp] theorem setQueue_region (x) : (s.setQueue x).region = s.region := rfl
@[simp] theorem setQueue_gate (x) : (s.setQueue x).gate = s.gate := rfl
@[simp] theorem setQueue_watch (x) : (s.setQueue x).watch = s.watch := rfl
@[simp] theorem setQueue_settings (x) : (s.setQueue x).settings = s.settings := rfl
@[simp] theorem setQueue_events (x) : (s.setQueue x).events = s.events := rfl
@[simp] theorem setQueue_link (x) : (s.setQueue x).link = s.link := rfl
@[simp] theorem setQueue_time (x) : (s.setQueue x).time = s.time := rfl
@[simp] theorem setQueue_mem (x) : (s.setQueue x).mem = s.mem := rfl
@[simp] theorem setQueue_free (x) : (s.setQueue x).free = s.free := rfl
@[simp] theorem setQueue_pending (x) : (s.setQueue x).pending = s.pending := rfl
@[simp] theorem setQueue_same : s.setQueue s.queue = s := rfl

@[simp] theorem setEngine_straps (x) : (s.setEngine x).straps = s.straps := rfl
@[simp] theorem setEngine_up (x) : (s.setEngine x).up = s.up := rfl
@[simp] theorem setEngine_port (x) : (s.setEngine x).port = s.port := rfl
@[simp] theorem setEngine_intake (x) : (s.setEngine x).intake = s.intake := rfl
@[simp] theorem setEngine_queue (x) : (s.setEngine x).queue = s.queue := rfl
@[simp] theorem setEngine_engine (x) : (s.setEngine x).engine = x := rfl
@[simp] theorem setEngine_region (x) : (s.setEngine x).region = s.region := rfl
@[simp] theorem setEngine_gate (x) : (s.setEngine x).gate = s.gate := rfl
@[simp] theorem setEngine_watch (x) : (s.setEngine x).watch = s.watch := rfl
@[simp] theorem setEngine_settings (x) : (s.setEngine x).settings = s.settings := rfl
@[simp] theorem setEngine_events (x) : (s.setEngine x).events = s.events := rfl
@[simp] theorem setEngine_link (x) : (s.setEngine x).link = s.link := rfl
@[simp] theorem setEngine_time (x) : (s.setEngine x).time = s.time := rfl
@[simp] theorem setEngine_mem (x) : (s.setEngine x).mem = s.mem := rfl
@[simp] theorem setEngine_free (x) : (s.setEngine x).free = s.free := rfl
@[simp] theorem setEngine_pending (x) : (s.setEngine x).pending = s.pending := rfl
@[simp] theorem setEngine_same : s.setEngine s.engine = s := rfl

@[simp] theorem setRegion_straps (x) : (s.setRegion x).straps = s.straps := rfl
@[simp] theorem setRegion_up (x) : (s.setRegion x).up = s.up := rfl
@[simp] theorem setRegion_port (x) : (s.setRegion x).port = s.port := rfl
@[simp] theorem setRegion_intake (x) : (s.setRegion x).intake = s.intake := rfl
@[simp] theorem setRegion_queue (x) : (s.setRegion x).queue = s.queue := rfl
@[simp] theorem setRegion_engine (x) : (s.setRegion x).engine = s.engine := rfl
@[simp] theorem setRegion_region (x) : (s.setRegion x).region = x := rfl
@[simp] theorem setRegion_gate (x) : (s.setRegion x).gate = s.gate := rfl
@[simp] theorem setRegion_watch (x) : (s.setRegion x).watch = s.watch := rfl
@[simp] theorem setRegion_settings (x) : (s.setRegion x).settings = s.settings := rfl
@[simp] theorem setRegion_events (x) : (s.setRegion x).events = s.events := rfl
@[simp] theorem setRegion_link (x) : (s.setRegion x).link = s.link := rfl
@[simp] theorem setRegion_time (x) : (s.setRegion x).time = s.time := rfl
@[simp] theorem setRegion_mem (x) : (s.setRegion x).mem = s.mem := rfl
@[simp] theorem setRegion_free (x) : (s.setRegion x).free = s.free := rfl
@[simp] theorem setRegion_pending (x) : (s.setRegion x).pending = s.pending := rfl
@[simp] theorem setRegion_same : s.setRegion s.region = s := rfl

@[simp] theorem setGate_straps (x) : (s.setGate x).straps = s.straps := rfl
@[simp] theorem setGate_up (x) : (s.setGate x).up = s.up := rfl
@[simp] theorem setGate_port (x) : (s.setGate x).port = s.port := rfl
@[simp] theorem setGate_intake (x) : (s.setGate x).intake = s.intake := rfl
@[simp] theorem setGate_queue (x) : (s.setGate x).queue = s.queue := rfl
@[simp] theorem setGate_engine (x) : (s.setGate x).engine = s.engine := rfl
@[simp] theorem setGate_region (x) : (s.setGate x).region = s.region := rfl
@[simp] theorem setGate_gate (x) : (s.setGate x).gate = x := rfl
@[simp] theorem setGate_watch (x) : (s.setGate x).watch = s.watch := rfl
@[simp] theorem setGate_settings (x) : (s.setGate x).settings = s.settings := rfl
@[simp] theorem setGate_events (x) : (s.setGate x).events = s.events := rfl
@[simp] theorem setGate_link (x) : (s.setGate x).link = s.link := rfl
@[simp] theorem setGate_time (x) : (s.setGate x).time = s.time := rfl
@[simp] theorem setGate_mem (x) : (s.setGate x).mem = s.mem := rfl
@[simp] theorem setGate_free (x) : (s.setGate x).free = s.free := rfl
@[simp] theorem setGate_pending (x) : (s.setGate x).pending = s.pending := rfl
@[simp] theorem setGate_same : s.setGate s.gate = s := rfl

@[simp] theorem setWatch_straps (x) : (s.setWatch x).straps = s.straps := rfl
@[simp] theorem setWatch_up (x) : (s.setWatch x).up = s.up := rfl
@[simp] theorem setWatch_port (x) : (s.setWatch x).port = s.port := rfl
@[simp] theorem setWatch_intake (x) : (s.setWatch x).intake = s.intake := rfl
@[simp] theorem setWatch_queue (x) : (s.setWatch x).queue = s.queue := rfl
@[simp] theorem setWatch_engine (x) : (s.setWatch x).engine = s.engine := rfl
@[simp] theorem setWatch_region (x) : (s.setWatch x).region = s.region := rfl
@[simp] theorem setWatch_gate (x) : (s.setWatch x).gate = s.gate := rfl
@[simp] theorem setWatch_watch (x) : (s.setWatch x).watch = x := rfl
@[simp] theorem setWatch_settings (x) : (s.setWatch x).settings = s.settings := rfl
@[simp] theorem setWatch_events (x) : (s.setWatch x).events = s.events := rfl
@[simp] theorem setWatch_link (x) : (s.setWatch x).link = s.link := rfl
@[simp] theorem setWatch_time (x) : (s.setWatch x).time = s.time := rfl
@[simp] theorem setWatch_mem (x) : (s.setWatch x).mem = s.mem := rfl
@[simp] theorem setWatch_free (x) : (s.setWatch x).free = s.free := rfl
@[simp] theorem setWatch_pending (x) : (s.setWatch x).pending = s.pending := rfl
@[simp] theorem setWatch_same : s.setWatch s.watch = s := rfl

@[simp] theorem setSettings_straps (x) : (s.setSettings x).straps = s.straps := rfl
@[simp] theorem setSettings_up (x) : (s.setSettings x).up = s.up := rfl
@[simp] theorem setSettings_port (x) : (s.setSettings x).port = s.port := rfl
@[simp] theorem setSettings_intake (x) : (s.setSettings x).intake = s.intake := rfl
@[simp] theorem setSettings_queue (x) : (s.setSettings x).queue = s.queue := rfl
@[simp] theorem setSettings_engine (x) : (s.setSettings x).engine = s.engine := rfl
@[simp] theorem setSettings_region (x) : (s.setSettings x).region = s.region := rfl
@[simp] theorem setSettings_gate (x) : (s.setSettings x).gate = s.gate := rfl
@[simp] theorem setSettings_watch (x) : (s.setSettings x).watch = s.watch := rfl
@[simp] theorem setSettings_settings (x) : (s.setSettings x).settings = x := rfl
@[simp] theorem setSettings_events (x) : (s.setSettings x).events = s.events := rfl
@[simp] theorem setSettings_link (x) : (s.setSettings x).link = s.link := rfl
@[simp] theorem setSettings_time (x) : (s.setSettings x).time = s.time := rfl
@[simp] theorem setSettings_mem (x) : (s.setSettings x).mem = s.mem := rfl
@[simp] theorem setSettings_free (x) : (s.setSettings x).free = s.free := rfl
@[simp] theorem setSettings_pending (x) : (s.setSettings x).pending = s.pending := rfl
@[simp] theorem setSettings_same : s.setSettings s.settings = s := rfl

@[simp] theorem setEvents_straps (x) : (s.setEvents x).straps = s.straps := rfl
@[simp] theorem setEvents_up (x) : (s.setEvents x).up = s.up := rfl
@[simp] theorem setEvents_port (x) : (s.setEvents x).port = s.port := rfl
@[simp] theorem setEvents_intake (x) : (s.setEvents x).intake = s.intake := rfl
@[simp] theorem setEvents_queue (x) : (s.setEvents x).queue = s.queue := rfl
@[simp] theorem setEvents_engine (x) : (s.setEvents x).engine = s.engine := rfl
@[simp] theorem setEvents_region (x) : (s.setEvents x).region = s.region := rfl
@[simp] theorem setEvents_gate (x) : (s.setEvents x).gate = s.gate := rfl
@[simp] theorem setEvents_watch (x) : (s.setEvents x).watch = s.watch := rfl
@[simp] theorem setEvents_settings (x) : (s.setEvents x).settings = s.settings := rfl
@[simp] theorem setEvents_events (x) : (s.setEvents x).events = x := rfl
@[simp] theorem setEvents_link (x) : (s.setEvents x).link = s.link := rfl
@[simp] theorem setEvents_time (x) : (s.setEvents x).time = s.time := rfl
@[simp] theorem setEvents_mem (x) : (s.setEvents x).mem = s.mem := rfl
@[simp] theorem setEvents_free (x) : (s.setEvents x).free = s.free := rfl
@[simp] theorem setEvents_pending (x) : (s.setEvents x).pending = s.pending := rfl
@[simp] theorem setEvents_same : s.setEvents s.events = s := rfl

@[simp] theorem setLink_straps (x) : (s.setLink x).straps = s.straps := rfl
@[simp] theorem setLink_up (x) : (s.setLink x).up = s.up := rfl
@[simp] theorem setLink_port (x) : (s.setLink x).port = s.port := rfl
@[simp] theorem setLink_intake (x) : (s.setLink x).intake = s.intake := rfl
@[simp] theorem setLink_queue (x) : (s.setLink x).queue = s.queue := rfl
@[simp] theorem setLink_engine (x) : (s.setLink x).engine = s.engine := rfl
@[simp] theorem setLink_region (x) : (s.setLink x).region = s.region := rfl
@[simp] theorem setLink_gate (x) : (s.setLink x).gate = s.gate := rfl
@[simp] theorem setLink_watch (x) : (s.setLink x).watch = s.watch := rfl
@[simp] theorem setLink_settings (x) : (s.setLink x).settings = s.settings := rfl
@[simp] theorem setLink_events (x) : (s.setLink x).events = s.events := rfl
@[simp] theorem setLink_link (x) : (s.setLink x).link = x := rfl
@[simp] theorem setLink_time (x) : (s.setLink x).time = s.time := rfl
@[simp] theorem setLink_mem (x) : (s.setLink x).mem = s.mem := rfl
@[simp] theorem setLink_free (x) : (s.setLink x).free = s.free := rfl
@[simp] theorem setLink_pending (x) : (s.setLink x).pending = s.pending := rfl
@[simp] theorem setLink_same : s.setLink s.link = s := rfl

@[simp] theorem setTime_straps (x) : (s.setTime x).straps = s.straps := rfl
@[simp] theorem setTime_up (x) : (s.setTime x).up = s.up := rfl
@[simp] theorem setTime_port (x) : (s.setTime x).port = s.port := rfl
@[simp] theorem setTime_intake (x) : (s.setTime x).intake = s.intake := rfl
@[simp] theorem setTime_queue (x) : (s.setTime x).queue = s.queue := rfl
@[simp] theorem setTime_engine (x) : (s.setTime x).engine = s.engine := rfl
@[simp] theorem setTime_region (x) : (s.setTime x).region = s.region := rfl
@[simp] theorem setTime_gate (x) : (s.setTime x).gate = s.gate := rfl
@[simp] theorem setTime_watch (x) : (s.setTime x).watch = s.watch := rfl
@[simp] theorem setTime_settings (x) : (s.setTime x).settings = s.settings := rfl
@[simp] theorem setTime_events (x) : (s.setTime x).events = s.events := rfl
@[simp] theorem setTime_link (x) : (s.setTime x).link = s.link := rfl
@[simp] theorem setTime_time (x) : (s.setTime x).time = x := rfl
@[simp] theorem setTime_mem (x) : (s.setTime x).mem = s.mem := rfl
@[simp] theorem setTime_free (x) : (s.setTime x).free = s.free := rfl
@[simp] theorem setTime_pending (x) : (s.setTime x).pending = s.pending := rfl
@[simp] theorem setTime_same : s.setTime s.time = s := rfl

@[simp] theorem setMem_straps (x) : (s.setMem x).straps = s.straps := rfl
@[simp] theorem setMem_up (x) : (s.setMem x).up = s.up := rfl
@[simp] theorem setMem_port (x) : (s.setMem x).port = s.port := rfl
@[simp] theorem setMem_intake (x) : (s.setMem x).intake = s.intake := rfl
@[simp] theorem setMem_queue (x) : (s.setMem x).queue = s.queue := rfl
@[simp] theorem setMem_engine (x) : (s.setMem x).engine = s.engine := rfl
@[simp] theorem setMem_region (x) : (s.setMem x).region = s.region := rfl
@[simp] theorem setMem_gate (x) : (s.setMem x).gate = s.gate := rfl
@[simp] theorem setMem_watch (x) : (s.setMem x).watch = s.watch := rfl
@[simp] theorem setMem_settings (x) : (s.setMem x).settings = s.settings := rfl
@[simp] theorem setMem_events (x) : (s.setMem x).events = s.events := rfl
@[simp] theorem setMem_link (x) : (s.setMem x).link = s.link := rfl
@[simp] theorem setMem_time (x) : (s.setMem x).time = s.time := rfl
@[simp] theorem setMem_mem (x) : (s.setMem x).mem = x := rfl
@[simp] theorem setMem_free (x) : (s.setMem x).free = s.free := rfl
@[simp] theorem setMem_pending (x) : (s.setMem x).pending = s.pending := rfl
@[simp] theorem setMem_same : s.setMem s.mem = s := rfl

@[simp] theorem setFree_straps (x) : (s.setFree x).straps = s.straps := rfl
@[simp] theorem setFree_up (x) : (s.setFree x).up = s.up := rfl
@[simp] theorem setFree_port (x) : (s.setFree x).port = s.port := rfl
@[simp] theorem setFree_intake (x) : (s.setFree x).intake = s.intake := rfl
@[simp] theorem setFree_queue (x) : (s.setFree x).queue = s.queue := rfl
@[simp] theorem setFree_engine (x) : (s.setFree x).engine = s.engine := rfl
@[simp] theorem setFree_region (x) : (s.setFree x).region = s.region := rfl
@[simp] theorem setFree_gate (x) : (s.setFree x).gate = s.gate := rfl
@[simp] theorem setFree_watch (x) : (s.setFree x).watch = s.watch := rfl
@[simp] theorem setFree_settings (x) : (s.setFree x).settings = s.settings := rfl
@[simp] theorem setFree_events (x) : (s.setFree x).events = s.events := rfl
@[simp] theorem setFree_link (x) : (s.setFree x).link = s.link := rfl
@[simp] theorem setFree_time (x) : (s.setFree x).time = s.time := rfl
@[simp] theorem setFree_mem (x) : (s.setFree x).mem = s.mem := rfl
@[simp] theorem setFree_free (x) : (s.setFree x).free = x := rfl
@[simp] theorem setFree_pending (x) : (s.setFree x).pending = s.pending := rfl
@[simp] theorem setFree_same : s.setFree s.free = s := rfl

@[simp] theorem setPending_straps (x) : (s.setPending x).straps = s.straps := rfl
@[simp] theorem setPending_up (x) : (s.setPending x).up = s.up := rfl
@[simp] theorem setPending_port (x) : (s.setPending x).port = s.port := rfl
@[simp] theorem setPending_intake (x) : (s.setPending x).intake = s.intake := rfl
@[simp] theorem setPending_queue (x) : (s.setPending x).queue = s.queue := rfl
@[simp] theorem setPending_engine (x) : (s.setPending x).engine = s.engine := rfl
@[simp] theorem setPending_region (x) : (s.setPending x).region = s.region := rfl
@[simp] theorem setPending_gate (x) : (s.setPending x).gate = s.gate := rfl
@[simp] theorem setPending_watch (x) : (s.setPending x).watch = s.watch := rfl
@[simp] theorem setPending_settings (x) : (s.setPending x).settings = s.settings := rfl
@[simp] theorem setPending_events (x) : (s.setPending x).events = s.events := rfl
@[simp] theorem setPending_link (x) : (s.setPending x).link = s.link := rfl
@[simp] theorem setPending_time (x) : (s.setPending x).time = s.time := rfl
@[simp] theorem setPending_mem (x) : (s.setPending x).mem = s.mem := rfl
@[simp] theorem setPending_free (x) : (s.setPending x).free = s.free := rfl
@[simp] theorem setPending_pending (x) : (s.setPending x).pending = x := rfl
@[simp] theorem setPending_same : s.setPending s.pending = s := rfl

/-- Two states that agree in every field are equal. -/
theorem eq_of_fields {s t : State} (h : s.straps = t.straps ∧ s.up = t.up ∧ s.port = t.port ∧
    s.intake = t.intake ∧ s.queue = t.queue ∧ s.engine = t.engine ∧ s.region = t.region ∧
    s.gate = t.gate ∧ s.watch = t.watch ∧ s.settings = t.settings ∧ s.events = t.events ∧
    s.link = t.link ∧ s.time = t.time ∧ s.mem = t.mem ∧ s.free = t.free ∧ s.pending = t.pending) :
    s = t := by
  obtain ⟨h1, h2, h3, h4, h5, h6, h7, h8, h9, h10, h11, h12, h13, h14, h15, h16⟩ := h
  cases s; cases t; congr

end Sys2Proof.Machine.State
end

