-- ==== Sys2Proof/Laws/Frames.lean ====
section
/-! SUPPORT. For each shared operation, the parts of the state that it leaves alone. -/

namespace Sys2Proof.Machine

@[simp] theorem raise_keeps (e : Event) (s : State) :
    (raise e s).straps = s.straps ∧ (raise e s).up = s.up ∧ (raise e s).port = s.port ∧
    (raise e s).intake = s.intake ∧ (raise e s).queue = s.queue ∧ (raise e s).engine = s.engine ∧
    (raise e s).region = s.region ∧ (raise e s).gate = s.gate ∧ (raise e s).watch = s.watch ∧
    (raise e s).settings = s.settings ∧ (raise e s).link = s.link ∧ (raise e s).time = s.time ∧
    (raise e s).mem = s.mem ∧ (raise e s).free = s.free ∧ (raise e s).pending = s.pending := by
  simp [raise]

@[simp] theorem count_keeps (c : Counter) (s : State) :
    (count c s).straps = s.straps ∧ (count c s).up = s.up ∧ (count c s).port = s.port ∧
    (count c s).intake = s.intake ∧ (count c s).queue = s.queue ∧ (count c s).engine = s.engine ∧
    (count c s).region = s.region ∧ (count c s).gate = s.gate ∧ (count c s).watch = s.watch ∧
    (count c s).settings = s.settings ∧ (count c s).link = s.link ∧ (count c s).time = s.time ∧
    (count c s).mem = s.mem ∧ (count c s).free = s.free ∧ (count c s).pending = s.pending := by
  simp [count]

@[simp] theorem setTableResult_keeps (o : TableOutcome) (g : TableOrigin) (b : Long) (n i : Nat)
    (s : State) :
    (setTableResult o g b n i s).straps = s.straps ∧ (setTableResult o g b n i s).up = s.up ∧
    (setTableResult o g b n i s).port = s.port ∧ (setTableResult o g b n i s).intake = s.intake ∧
    (setTableResult o g b n i s).queue = s.queue ∧ (setTableResult o g b n i s).engine = s.engine ∧
    (setTableResult o g b n i s).gate = s.gate ∧ (setTableResult o g b n i s).watch = s.watch ∧
    (setTableResult o g b n i s).settings = s.settings ∧
    (setTableResult o g b n i s).events = s.events ∧ (setTableResult o g b n i s).link = s.link ∧
    (setTableResult o g b n i s).time = s.time ∧ (setTableResult o g b n i s).mem = s.mem ∧
    (setTableResult o g b n i s).free = s.free ∧
    (setTableResult o g b n i s).pending = s.pending := by
  simp [setTableResult]

@[simp] theorem switchTable_keeps (s : State) :
    (switchTable s).straps = s.straps ∧ (switchTable s).up = s.up ∧ (switchTable s).port = s.port ∧
    (switchTable s).intake = s.intake ∧ (switchTable s).queue = s.queue ∧
    (switchTable s).engine = s.engine ∧ (switchTable s).gate = s.gate ∧
    (switchTable s).watch = s.watch ∧ (switchTable s).settings = s.settings ∧
    (switchTable s).events = s.events ∧ (switchTable s).link = s.link ∧
    (switchTable s).time = s.time ∧ (switchTable s).mem = s.mem ∧ (switchTable s).free = s.free ∧
    (switchTable s).pending = s.pending := by
  simp only [switchTable]; (repeat' split) <;> simp

@[simp] theorem undoSwitch_keeps (s : State) :
    (undoSwitch s).straps = s.straps ∧ (undoSwitch s).up = s.up ∧ (undoSwitch s).port = s.port ∧
    (undoSwitch s).intake = s.intake ∧ (undoSwitch s).queue = s.queue ∧
    (undoSwitch s).engine = s.engine ∧ (undoSwitch s).gate = s.gate ∧
    (undoSwitch s).watch = s.watch ∧ (undoSwitch s).settings = s.settings ∧
    (undoSwitch s).events = s.events ∧ (undoSwitch s).link = s.link ∧ (undoSwitch s).time = s.time ∧
    (undoSwitch s).mem = s.mem ∧ (undoSwitch s).free = s.free ∧
    (undoSwitch s).pending = s.pending := by
  simp only [undoSwitch]; (repeat' split) <;> simp

@[simp] theorem compareUnit_keeps (n : Fin 4) (held : Four WatchSettings) (c : WatchCapture)
    (s : State) :
    (compareUnit n held c s).straps = s.straps ∧ (compareUnit n held c s).up = s.up ∧
    (compareUnit n held c s).port = s.port ∧ (compareUnit n held c s).intake = s.intake ∧
    (compareUnit n held c s).queue = s.queue ∧ (compareUnit n held c s).engine = s.engine ∧
    (compareUnit n held c s).region = s.region ∧ (compareUnit n held c s).gate = s.gate ∧
    (compareUnit n held c s).settings = s.settings ∧ (compareUnit n held c s).link = s.link ∧
    (compareUnit n held c s).time = s.time ∧ (compareUnit n held c s).mem = s.mem ∧
    (compareUnit n held c s).free = s.free ∧ (compareUnit n held c s).pending = s.pending := by
  simp only [compareUnit]; (repeat' split) <;> simp

@[simp] theorem compareAll_keeps (held : Four WatchSettings) (c : WatchCapture) (s : State) :
    (compareAll held c s).straps = s.straps ∧ (compareAll held c s).up = s.up ∧
    (compareAll held c s).port = s.port ∧ (compareAll held c s).intake = s.intake ∧
    (compareAll held c s).queue = s.queue ∧ (compareAll held c s).engine = s.engine ∧
    (compareAll held c s).region = s.region ∧ (compareAll held c s).gate = s.gate ∧
    (compareAll held c s).settings = s.settings ∧ (compareAll held c s).link = s.link ∧
    (compareAll held c s).time = s.time ∧ (compareAll held c s).mem = s.mem ∧
    (compareAll held c s).free = s.free ∧ (compareAll held c s).pending = s.pending := by
  simp [compareAll]

@[simp] theorem drawFree_keeps (s : State) :
    (drawFree s).straps = s.straps ∧ (drawFree s).up = s.up ∧ (drawFree s).port = s.port ∧
    (drawFree s).intake = s.intake ∧ (drawFree s).queue = s.queue ∧ (drawFree s).engine = s.engine ∧
    (drawFree s).region = s.region ∧ (drawFree s).gate = s.gate ∧ (drawFree s).watch = s.watch ∧
    (drawFree s).settings = s.settings ∧ (drawFree s).events = s.events ∧
    (drawFree s).link = s.link ∧ (drawFree s).time = s.time ∧ (drawFree s).mem = s.mem ∧
    (drawFree s).pending = s.pending := by
  simp [drawFree]

@[simp] theorem setOpState_keeps (o : OpState) (s : State) :
    (setOpState o s).straps = s.straps ∧ (setOpState o s).up = s.up ∧
    (setOpState o s).port = s.port ∧ (setOpState o s).intake = s.intake ∧
    (setOpState o s).queue = s.queue ∧ (setOpState o s).engine = s.engine ∧
    (setOpState o s).region = s.region ∧ (setOpState o s).watch = s.watch ∧
    (setOpState o s).settings = s.settings ∧ (setOpState o s).events = s.events ∧
    (setOpState o s).link = s.link ∧ (setOpState o s).time = s.time ∧ (setOpState o s).mem = s.mem ∧
    (setOpState o s).free = s.free ∧ (setOpState o s).pending = s.pending := by
  simp [setOpState]

@[simp] theorem endCycle_keeps (s : State) :
    (endCycle s).straps = s.straps ∧ (endCycle s).port = s.port ∧ (endCycle s).intake = s.intake ∧
    (endCycle s).queue = s.queue ∧ (endCycle s).engine = s.engine ∧ (endCycle s).region = s.region ∧
    (endCycle s).gate = s.gate ∧ (endCycle s).watch = s.watch ∧ (endCycle s).settings = s.settings ∧
    (endCycle s).events = s.events ∧ (endCycle s).link = s.link ∧ (endCycle s).time = s.time ∧
    (endCycle s).mem = s.mem ∧ (endCycle s).free = s.free ∧ (endCycle s).pending = s.pending := by
  simp [endCycle]

@[simp] theorem refuse_keeps (a : Addr) (d : Direction) (r : Reason) (g : Word) (s : State) :
    (refuse a d r g s).straps = s.straps ∧ (refuse a d r g s).port = s.port ∧
    (refuse a d r g s).intake = s.intake ∧ (refuse a d r g s).queue = s.queue ∧
    (refuse a d r g s).engine = s.engine ∧ (refuse a d r g s).region = s.region ∧
    (refuse a d r g s).gate = s.gate ∧ (refuse a d r g s).watch = s.watch ∧
    (refuse a d r g s).settings = s.settings ∧ (refuse a d r g s).link = s.link ∧
    (refuse a d r g s).time = s.time ∧ (refuse a d r g s).mem = s.mem ∧
    (refuse a d r g s).free = s.free ∧ (refuse a d r g s).pending = s.pending := by
  simp only [refuse]; (repeat' split) <;> simp

@[simp] theorem answerRead_keeps (w : Word) (s : State) :
    (answerRead w s).straps = s.straps ∧ (answerRead w s).port = s.port ∧
    (answerRead w s).intake = s.intake ∧ (answerRead w s).queue = s.queue ∧
    (answerRead w s).engine = s.engine ∧ (answerRead w s).region = s.region ∧
    (answerRead w s).gate = s.gate ∧ (answerRead w s).watch = s.watch ∧
    (answerRead w s).settings = s.settings ∧ (answerRead w s).events = s.events ∧
    (answerRead w s).link = s.link ∧ (answerRead w s).time = s.time ∧ (answerRead w s).mem = s.mem ∧
    (answerRead w s).free = s.free ∧ (answerRead w s).pending = s.pending := by
  simp [answerRead]

@[simp] theorem openCycle_keeps (s : State) :
    (openCycle s).straps = s.straps ∧ (openCycle s).port = s.port ∧ (openCycle s).intake = s.intake ∧
    (openCycle s).queue = s.queue ∧ (openCycle s).engine = s.engine ∧
    (openCycle s).region = s.region ∧ (openCycle s).gate = s.gate ∧ (openCycle s).watch = s.watch ∧
    (openCycle s).settings = s.settings ∧ (openCycle s).events = s.events ∧
    (openCycle s).link = s.link ∧ (openCycle s).time = s.time ∧ (openCycle s).mem = s.mem ∧
    (openCycle s).free = s.free ∧ (openCycle s).pending = s.pending := by
  simp [openCycle]

@[simp] theorem holdCycle_keeps (c : Cycle) (t : Option WaitTimer) (s : State) :
    (holdCycle c t s).straps = s.straps ∧ (holdCycle c t s).port = s.port ∧
    (holdCycle c t s).intake = s.intake ∧ (holdCycle c t s).queue = s.queue ∧
    (holdCycle c t s).engine = s.engine ∧ (holdCycle c t s).region = s.region ∧
    (holdCycle c t s).gate = s.gate ∧ (holdCycle c t s).watch = s.watch ∧
    (holdCycle c t s).settings = s.settings ∧ (holdCycle c t s).events = s.events ∧
    (holdCycle c t s).link = s.link ∧ (holdCycle c t s).time = s.time ∧
    (holdCycle c t s).mem = s.mem ∧ (holdCycle c t s).free = s.free ∧
    (holdCycle c t s).pending = s.pending := by
  simp [holdCycle]

@[simp] theorem appendEntry_keeps (e : Entry) (s : State) :
    (appendEntry e s).straps = s.straps ∧ (appendEntry e s).up = s.up ∧
    (appendEntry e s).port = s.port ∧ (appendEntry e s).intake = s.intake ∧
    (appendEntry e s).engine = s.engine ∧ (appendEntry e s).region = s.region ∧
    (appendEntry e s).gate = s.gate ∧ (appendEntry e s).watch = s.watch ∧
    (appendEntry e s).settings = s.settings ∧ (appendEntry e s).events = s.events ∧
    (appendEntry e s).link = s.link ∧ (appendEntry e s).time = s.time ∧
    (appendEntry e s).mem = s.mem ∧ (appendEntry e s).free = s.free ∧
    (appendEntry e s).pending = s.pending := by
  simp [appendEntry]

@[simp] theorem acceptJournaled_keeps (a : Addr) (d : Word) (l : Lanes) (s : State) :
    (acceptJournaled a d l s).straps = s.straps ∧ (acceptJournaled a d l s).up = s.up ∧
    (acceptJournaled a d l s).port = s.port ∧ (acceptJournaled a d l s).engine = s.engine ∧
    (acceptJournaled a d l s).region = s.region ∧ (acceptJournaled a d l s).gate = s.gate ∧
    (acceptJournaled a d l s).watch = s.watch ∧ (acceptJournaled a d l s).settings = s.settings ∧
    (acceptJournaled a d l s).events = s.events ∧ (acceptJournaled a d l s).link = s.link ∧
    (acceptJournaled a d l s).time = s.time ∧ (acceptJournaled a d l s).mem = s.mem ∧
    (acceptJournaled a d l s).free = s.free ∧ (acceptJournaled a d l s).pending = s.pending := by
  simp only [acceptJournaled]; (repeat' split) <;> simp

@[simp] theorem acceptWrite_keeps (a : Addr) (d : Word) (l : Lanes) (k : RegionClass) (s : State) :
    (acceptWrite a d l k s).straps = s.straps ∧ (acceptWrite a d l k s).port = s.port ∧
    (acceptWrite a d l k s).engine = s.engine ∧ (acceptWrite a d l k s).region = s.region ∧
    (acceptWrite a d l k s).gate = s.gate ∧ (acceptWrite a d l k s).watch = s.watch ∧
    (acceptWrite a d l k s).settings = s.settings ∧ (acceptWrite a d l k s).events = s.events ∧
    (acceptWrite a d l k s).link = s.link ∧ (acceptWrite a d l k s).time = s.time ∧
    (acceptWrite a d l k s).mem = s.mem ∧ (acceptWrite a d l k s).free = s.free ∧
    (acceptWrite a d l k s).pending = s.pending := by
  simp only [acceptWrite]; (repeat' split) <;> simp

@[simp] theorem claimEntry_keeps (c : Cycle) (s : State) :
    (claimEntry c s).straps = s.straps ∧ (claimEntry c s).port = s.port ∧
    (claimEntry c s).engine = s.engine ∧ (claimEntry c s).region = s.region ∧
    (claimEntry c s).gate = s.gate ∧ (claimEntry c s).watch = s.watch ∧
    (claimEntry c s).settings = s.settings ∧ (claimEntry c s).link = s.link ∧
    (claimEntry c s).time = s.time ∧ (claimEntry c s).mem = s.mem ∧ (claimEntry c s).free = s.free ∧
    (claimEntry c s).pending = s.pending := by
  simp only [claimEntry]; (repeat' split) <;> simp

@[simp] theorem claimFirst_keeps (s : State) :
    (claimFirst s).straps = s.straps ∧ (claimFirst s).port = s.port ∧
    (claimFirst s).engine = s.engine ∧ (claimFirst s).region = s.region ∧
    (claimFirst s).gate = s.gate ∧ (claimFirst s).watch = s.watch ∧
    (claimFirst s).settings = s.settings ∧ (claimFirst s).link = s.link ∧
    (claimFirst s).time = s.time ∧ (claimFirst s).mem = s.mem ∧
    (claimFirst s).free = s.free ∧ (claimFirst s).pending = s.pending := by
  simp only [claimFirst]; (repeat' split) <;> simp

@[simp] theorem refuseWaiting_keeps (s : State) :
    (refuseWaiting s).straps = s.straps ∧ (refuseWaiting s).port = s.port ∧
    (refuseWaiting s).intake = s.intake ∧ (refuseWaiting s).queue = s.queue ∧
    (refuseWaiting s).engine = s.engine ∧ (refuseWaiting s).region = s.region ∧
    (refuseWaiting s).gate = s.gate ∧ (refuseWaiting s).watch = s.watch ∧
    (refuseWaiting s).settings = s.settings ∧ (refuseWaiting s).link = s.link ∧
    (refuseWaiting s).time = s.time ∧ (refuseWaiting s).mem = s.mem ∧
    (refuseWaiting s).free = s.free ∧ (refuseWaiting s).pending = s.pending := by
  simp only [refuseWaiting]; (repeat' split) <;> simp

@[simp] theorem makeToken_keeps (s : State) :
    (makeToken s).straps = s.straps ∧ (makeToken s).up = s.up ∧ (makeToken s).port = s.port ∧
    (makeToken s).engine = s.engine ∧ (makeToken s).gate = s.gate ∧ (makeToken s).watch = s.watch ∧
    (makeToken s).settings = s.settings ∧ (makeToken s).events = s.events ∧
    (makeToken s).link = s.link ∧ (makeToken s).time = s.time ∧ (makeToken s).mem = s.mem ∧
    (makeToken s).free = s.free ∧ (makeToken s).pending = s.pending := by
  simp [makeToken]

@[simp] theorem takeCommit_keeps (s : State) :
    (takeCommit s).straps = s.straps ∧ (takeCommit s).up = s.up ∧ (takeCommit s).port = s.port ∧
    (takeCommit s).engine = s.engine ∧ (takeCommit s).gate = s.gate ∧
    (takeCommit s).watch = s.watch ∧ (takeCommit s).settings = s.settings ∧
    (takeCommit s).events = s.events ∧ (takeCommit s).link = s.link ∧ (takeCommit s).time = s.time ∧
    (takeCommit s).mem = s.mem ∧ (takeCommit s).free = s.free ∧
    (takeCommit s).pending = s.pending := by
  simp only [takeCommit]; (repeat' split) <;> simp

@[simp] theorem stopOrder_keeps (s : State) :
    (stopOrder s).straps = s.straps ∧ (stopOrder s).up = s.up ∧ (stopOrder s).port = s.port ∧
    (stopOrder s).region = s.region ∧ (stopOrder s).gate = s.gate ∧ (stopOrder s).watch = s.watch ∧
    (stopOrder s).settings = s.settings ∧ (stopOrder s).events = s.events ∧
    (stopOrder s).link = s.link ∧ (stopOrder s).time = s.time ∧ (stopOrder s).mem = s.mem ∧
    (stopOrder s).free = s.free ∧ (stopOrder s).pending = s.pending := by
  simp only [stopOrder]; (repeat' split) <;> simp

@[simp] theorem faultOrder_keeps (s : State) :
    (faultOrder s).straps = s.straps ∧ (faultOrder s).up = s.up ∧ (faultOrder s).port = s.port ∧
    (faultOrder s).engine = s.engine ∧ (faultOrder s).gate = s.gate ∧
    (faultOrder s).watch = s.watch ∧ (faultOrder s).settings = s.settings ∧
    (faultOrder s).events = s.events ∧ (faultOrder s).link = s.link ∧ (faultOrder s).time = s.time ∧
    (faultOrder s).mem = s.mem ∧ (faultOrder s).free = s.free ∧
    (faultOrder s).pending = s.pending := by
  simp only [faultOrder]; (repeat' split) <;> simp

@[simp] theorem addCause_keeps (c : Cause) (s : State) :
    (addCause c s).straps = s.straps ∧ (addCause c s).up = s.up ∧ (addCause c s).port = s.port ∧
    (addCause c s).intake = s.intake ∧ (addCause c s).queue = s.queue ∧
    (addCause c s).engine = s.engine ∧ (addCause c s).region = s.region ∧
    (addCause c s).watch = s.watch ∧ (addCause c s).settings = s.settings ∧
    (addCause c s).events = s.events ∧ (addCause c s).link = s.link ∧ (addCause c s).time = s.time ∧
    (addCause c s).mem = s.mem ∧ (addCause c s).free = s.free ∧
    (addCause c s).pending = s.pending := by
  simp [addCause]

@[simp] theorem setLevel_keeps (a : Action) (s : State) :
    (setLevel a s).straps = s.straps ∧ (setLevel a s).up = s.up ∧ (setLevel a s).port = s.port ∧
    (setLevel a s).intake = s.intake ∧ (setLevel a s).queue = s.queue ∧
    (setLevel a s).engine = s.engine ∧ (setLevel a s).region = s.region ∧
    (setLevel a s).watch = s.watch ∧ (setLevel a s).settings = s.settings ∧
    (setLevel a s).events = s.events ∧ (setLevel a s).link = s.link ∧ (setLevel a s).time = s.time ∧
    (setLevel a s).mem = s.mem ∧ (setLevel a s).free = s.free ∧
    (setLevel a s).pending = s.pending := by
  simp [setLevel]

@[simp] theorem placeOrder_keeps (o : Origin) (s : State) :
    (placeOrder o s).straps = s.straps ∧ (placeOrder o s).up = s.up ∧
    (placeOrder o s).port = s.port ∧ (placeOrder o s).intake = s.intake ∧
    (placeOrder o s).queue = s.queue ∧ (placeOrder o s).engine = s.engine ∧
    (placeOrder o s).region = s.region ∧ (placeOrder o s).watch = s.watch ∧
    (placeOrder o s).settings = s.settings ∧ (placeOrder o s).events = s.events ∧
    (placeOrder o s).link = s.link ∧ (placeOrder o s).time = s.time ∧ (placeOrder o s).mem = s.mem ∧
    (placeOrder o s).free = s.free ∧ (placeOrder o s).pending = s.pending := by
  simp only [placeOrder]; (repeat' split) <;> simp

@[simp] theorem closeGate_keeps (s : State) :
    (closeGate s).straps = s.straps ∧ (closeGate s).port = s.port ∧ (closeGate s).intake = s.intake ∧
    (closeGate s).queue = s.queue ∧ (closeGate s).engine = s.engine ∧
    (closeGate s).region = s.region ∧ (closeGate s).watch = s.watch ∧
    (closeGate s).settings = s.settings ∧ (closeGate s).link = s.link ∧ (closeGate s).time = s.time ∧
    (closeGate s).mem = s.mem ∧ (closeGate s).free = s.free ∧ (closeGate s).pending = s.pending := by
  simp [closeGate]

@[simp] theorem actStopped_keeps (c : Cause) (a : Action) (s : State) :
    (actStopped c a s).straps = s.straps ∧ (actStopped c a s).up = s.up ∧
    (actStopped c a s).port = s.port ∧ (actStopped c a s).region = s.region ∧
    (actStopped c a s).watch = s.watch ∧ (actStopped c a s).settings = s.settings ∧
    (actStopped c a s).events = s.events ∧ (actStopped c a s).link = s.link ∧
    (actStopped c a s).time = s.time ∧ (actStopped c a s).mem = s.mem ∧
    (actStopped c a s).free = s.free ∧ (actStopped c a s).pending = s.pending := by
  simp only [actStopped]; (repeat' split) <;> simp

@[simp] theorem actOpen_keeps (a : Action) (s : State) :
    (actOpen a s).straps = s.straps ∧ (actOpen a s).port = s.port ∧
    (actOpen a s).engine = s.engine ∧ (actOpen a s).gate = s.gate ∧ (actOpen a s).watch = s.watch ∧
    (actOpen a s).settings = s.settings ∧
    (actOpen a s).link = s.link ∧ (actOpen a s).time = s.time ∧ (actOpen a s).mem = s.mem ∧
    (actOpen a s).free = s.free ∧ (actOpen a s).pending = s.pending := by
  simp only [actOpen]; (repeat' split) <;> simp

@[simp] theorem trigger_keeps (c : Cause) (a : Action) (s : State) :
    (trigger c a s).straps = s.straps ∧ (trigger c a s).port = s.port ∧
    (trigger c a s).watch = s.watch ∧ (trigger c a s).settings = s.settings ∧
    (trigger c a s).link = s.link ∧ (trigger c a s).time = s.time ∧ (trigger c a s).mem = s.mem ∧
    (trigger c a s).free = s.free ∧ (trigger c a s).pending = s.pending := by
  simp only [trigger]; (repeat' split) <;> simp

@[simp] theorem watchTrigger_keeps (o : Option WatchAction) (s : State) :
    (watchTrigger o s).straps = s.straps ∧ (watchTrigger o s).port = s.port ∧
    (watchTrigger o s).watch = s.watch ∧ (watchTrigger o s).settings = s.settings ∧
    (watchTrigger o s).link = s.link ∧ (watchTrigger o s).time = s.time ∧
    (watchTrigger o s).mem = s.mem ∧ (watchTrigger o s).free = s.free ∧
    (watchTrigger o s).pending = s.pending := by
  simp only [watchTrigger]; (repeat' split) <;> simp

@[simp] theorem setInput_keeps (l : InputLine) (x : InputState) (s : State) :
    (setInput l x s).straps = s.straps ∧ (setInput l x s).up = s.up ∧
    (setInput l x s).port = s.port ∧ (setInput l x s).intake = s.intake ∧
    (setInput l x s).queue = s.queue ∧ (setInput l x s).engine = s.engine ∧
    (setInput l x s).region = s.region ∧ (setInput l x s).watch = s.watch ∧
    (setInput l x s).settings = s.settings ∧ (setInput l x s).events = s.events ∧
    (setInput l x s).link = s.link ∧ (setInput l x s).time = s.time ∧ (setInput l x s).mem = s.mem ∧
    (setInput l x s).free = s.free ∧ (setInput l x s).pending = s.pending := by
  simp only [setInput]; (repeat' split) <;> simp

@[simp] theorem lineTrigger_keeps (l : InputLine) (s : State) :
    (lineTrigger l s).straps = s.straps ∧ (lineTrigger l s).port = s.port ∧
    (lineTrigger l s).watch = s.watch ∧ (lineTrigger l s).settings = s.settings ∧
    (lineTrigger l s).link = s.link ∧ (lineTrigger l s).time = s.time ∧
    (lineTrigger l s).mem = s.mem ∧ (lineTrigger l s).free = s.free ∧
    (lineTrigger l s).pending = s.pending := by
  simp [lineTrigger]

@[simp] theorem examineLine_keeps (l : InputLine) (s : State) :
    (examineLine l s).straps = s.straps ∧ (examineLine l s).up = s.up ∧
    (examineLine l s).port = s.port ∧ (examineLine l s).intake = s.intake ∧
    (examineLine l s).queue = s.queue ∧ (examineLine l s).engine = s.engine ∧
    (examineLine l s).region = s.region ∧ (examineLine l s).watch = s.watch ∧
    (examineLine l s).settings = s.settings ∧ (examineLine l s).events = s.events ∧
    (examineLine l s).link = s.link ∧ (examineLine l s).time = s.time ∧
    (examineLine l s).mem = s.mem ∧ (examineLine l s).free = s.free ∧
    (examineLine l s).pending = s.pending := by
  simp only [examineLine]; (repeat' split) <;> simp

@[simp] theorem openGate_keeps (s : State) :
    (openGate s).straps = s.straps ∧ (openGate s).up = s.up ∧ (openGate s).port = s.port ∧
    (openGate s).intake = s.intake ∧ (openGate s).queue = s.queue ∧ (openGate s).engine = s.engine ∧
    (openGate s).region = s.region ∧ (openGate s).watch = s.watch ∧
    (openGate s).settings = s.settings ∧ (openGate s).link = s.link ∧ (openGate s).time = s.time ∧
    (openGate s).mem = s.mem ∧ (openGate s).free = s.free ∧ (openGate s).pending = s.pending := by
  simp only [openGate]; (repeat' split) <;> simp

@[simp] theorem setWork_keeps (w : Work) (s : State) :
    (setWork w s).straps = s.straps ∧ (setWork w s).up = s.up ∧ (setWork w s).port = s.port ∧
    (setWork w s).intake = s.intake ∧ (setWork w s).queue = s.queue ∧
    (setWork w s).region = s.region ∧ (setWork w s).gate = s.gate ∧ (setWork w s).watch = s.watch ∧
    (setWork w s).settings = s.settings ∧ (setWork w s).events = s.events ∧
    (setWork w s).link = s.link ∧ (setWork w s).time = s.time ∧ (setWork w s).mem = s.mem ∧
    (setWork w s).free = s.free ∧ (setWork w s).pending = s.pending := by
  simp [setWork]

@[simp] theorem setDrain_keeps (d : Drain) (s : State) :
    (setDrain d s).straps = s.straps ∧ (setDrain d s).up = s.up ∧ (setDrain d s).port = s.port ∧
    (setDrain d s).intake = s.intake ∧ (setDrain d s).queue = s.queue ∧
    (setDrain d s).region = s.region ∧ (setDrain d s).gate = s.gate ∧
    (setDrain d s).watch = s.watch ∧ (setDrain d s).settings = s.settings ∧
    (setDrain d s).events = s.events ∧ (setDrain d s).link = s.link ∧ (setDrain d s).time = s.time ∧
    (setDrain d s).mem = s.mem ∧ (setDrain d s).free = s.free ∧
    (setDrain d s).pending = s.pending := by
  simp [setDrain]

@[simp] theorem finishDrain_keeps (s : State) :
    (finishDrain s).straps = s.straps ∧ (finishDrain s).up = s.up ∧ (finishDrain s).port = s.port ∧
    (finishDrain s).intake = s.intake ∧ (finishDrain s).region = s.region ∧
    (finishDrain s).gate = s.gate ∧ (finishDrain s).watch = s.watch ∧
    (finishDrain s).settings = s.settings ∧ (finishDrain s).events = s.events ∧
    (finishDrain s).link = s.link ∧ (finishDrain s).time = s.time ∧ (finishDrain s).mem = s.mem ∧
    (finishDrain s).free = s.free ∧ (finishDrain s).pending = s.pending := by
  simp [finishDrain]

@[simp] theorem closeGroup_keeps (g : GroupNo) (s : State) :
    (closeGroup g s).straps = s.straps ∧ (closeGroup g s).up = s.up ∧
    (closeGroup g s).port = s.port ∧ (closeGroup g s).intake = s.intake ∧
    (closeGroup g s).queue = s.queue ∧ (closeGroup g s).region = s.region ∧
    (closeGroup g s).gate = s.gate ∧ (closeGroup g s).watch = s.watch ∧
    (closeGroup g s).settings = s.settings ∧ (closeGroup g s).events = s.events ∧
    (closeGroup g s).link = s.link ∧ (closeGroup g s).time = s.time ∧ (closeGroup g s).mem = s.mem ∧
    (closeGroup g s).free = s.free ∧ (closeGroup g s).pending = s.pending := by
  simp [closeGroup]

@[simp] theorem checkExhausted_keeps (s : State) :
    (checkExhausted s).straps = s.straps ∧ (checkExhausted s).port = s.port ∧
    (checkExhausted s).watch = s.watch ∧ (checkExhausted s).settings = s.settings ∧
    (checkExhausted s).link = s.link ∧ (checkExhausted s).time = s.time ∧
    (checkExhausted s).mem = s.mem ∧ (checkExhausted s).free = s.free ∧
    (checkExhausted s).pending = s.pending := by
  simp only [checkExhausted]; (repeat' split) <;> simp

@[simp] theorem setGroup_keeps (g : GroupNo) (s : State) :
    (setGroup g s).straps = s.straps ∧ (setGroup g s).up = s.up ∧ (setGroup g s).port = s.port ∧
    (setGroup g s).queue = s.queue ∧ (setGroup g s).engine = s.engine ∧
    (setGroup g s).region = s.region ∧ (setGroup g s).gate = s.gate ∧
    (setGroup g s).watch = s.watch ∧ (setGroup g s).settings = s.settings ∧
    (setGroup g s).events = s.events ∧ (setGroup g s).link = s.link ∧ (setGroup g s).time = s.time ∧
    (setGroup g s).mem = s.mem ∧ (setGroup g s).free = s.free ∧
    (setGroup g s).pending = s.pending := by
  simp [setGroup]

@[simp] theorem releaseHeld_keeps (s : State) :
    (releaseHeld s).straps = s.straps ∧ (releaseHeld s).port = s.port ∧
    (releaseHeld s).intake = s.intake ∧ (releaseHeld s).queue = s.queue ∧
    (releaseHeld s).engine = s.engine ∧ (releaseHeld s).region = s.region ∧
    (releaseHeld s).gate = s.gate ∧ (releaseHeld s).watch = s.watch ∧
    (releaseHeld s).settings = s.settings ∧ (releaseHeld s).events = s.events ∧
    (releaseHeld s).link = s.link ∧ (releaseHeld s).time = s.time ∧ (releaseHeld s).mem = s.mem ∧
    (releaseHeld s).free = s.free ∧ (releaseHeld s).pending = s.pending := by
  simp only [releaseHeld]; (repeat' split) <;> simp

@[simp] theorem fillReport_keeps (r : RestoreReport) (s : State) :
    (fillReport r s).straps = s.straps ∧ (fillReport r s).up = s.up ∧
    (fillReport r s).port = s.port ∧ (fillReport r s).intake = s.intake ∧
    (fillReport r s).engine = s.engine ∧ (fillReport r s).region = s.region ∧
    (fillReport r s).gate = s.gate ∧ (fillReport r s).watch = s.watch ∧
    (fillReport r s).settings = s.settings ∧ (fillReport r s).link = s.link ∧
    (fillReport r s).time = s.time ∧ (fillReport r s).mem = s.mem ∧ (fillReport r s).free = s.free ∧
    (fillReport r s).pending = s.pending := by
  simp [fillReport]

@[simp] theorem endRollback_keeps (r : Rollback) (o : RestoreOutcome) (n i : Option Nat) (s : State) :
    (endRollback r o n i s).straps = s.straps ∧ (endRollback r o n i s).port = s.port ∧
    (endRollback r o n i s).intake = s.intake ∧ (endRollback r o n i s).region = s.region ∧
    (endRollback r o n i s).gate = s.gate ∧ (endRollback r o n i s).watch = s.watch ∧
    (endRollback r o n i s).settings = s.settings ∧ (endRollback r o n i s).link = s.link ∧
    (endRollback r o n i s).time = s.time ∧ (endRollback r o n i s).mem = s.mem ∧
    (endRollback r o n i s).free = s.free ∧ (endRollback r o n i s).pending = s.pending := by
  simp [endRollback]

@[simp] theorem voidDone_keeps (r : Rollback) (n : Option Nat) (b : Bool) (s : State) :
    (voidDone r n b s).straps = s.straps ∧ (voidDone r n b s).port = s.port ∧
    (voidDone r n b s).watch = s.watch ∧ (voidDone r n b s).settings = s.settings ∧
    (voidDone r n b s).link = s.link ∧ (voidDone r n b s).time = s.time ∧
    (voidDone r n b s).mem = s.mem ∧ (voidDone r n b s).free = s.free ∧
    (voidDone r n b s).pending = s.pending := by
  simp [voidDone]

@[simp] theorem setRoll_keeps (r : Rollback) (p : RollPhase) (s : State) :
    (setRoll r p s).straps = s.straps ∧ (setRoll r p s).up = s.up ∧ (setRoll r p s).port = s.port ∧
    (setRoll r p s).intake = s.intake ∧ (setRoll r p s).queue = s.queue ∧
    (setRoll r p s).region = s.region ∧ (setRoll r p s).gate = s.gate ∧
    (setRoll r p s).watch = s.watch ∧ (setRoll r p s).settings = s.settings ∧
    (setRoll r p s).events = s.events ∧ (setRoll r p s).link = s.link ∧
    (setRoll r p s).time = s.time ∧ (setRoll r p s).mem = s.mem ∧ (setRoll r p s).free = s.free ∧
    (setRoll r p s).pending = s.pending := by
  simp [setRoll]

@[simp] theorem beginVoid_keeps (r : Rollback) (n : Option Nat) (s : State) :
    (beginVoid r n s).straps = s.straps ∧ (beginVoid r n s).up = s.up ∧
    (beginVoid r n s).port = s.port ∧ (beginVoid r n s).intake = s.intake ∧
    (beginVoid r n s).queue = s.queue ∧ (beginVoid r n s).region = s.region ∧
    (beginVoid r n s).gate = s.gate ∧ (beginVoid r n s).watch = s.watch ∧
    (beginVoid r n s).settings = s.settings ∧ (beginVoid r n s).events = s.events ∧
    (beginVoid r n s).link = s.link ∧ (beginVoid r n s).time = s.time ∧
    (beginVoid r n s).mem = s.mem ∧ (beginVoid r n s).free = s.free ∧
    (beginVoid r n s).pending = s.pending := by
  simp [beginVoid]

@[simp] theorem beginRestores_keeps (r : Rollback) (s : State) :
    (beginRestores r s).straps = s.straps ∧ (beginRestores r s).port = s.port ∧
    (beginRestores r s).intake = s.intake ∧ (beginRestores r s).region = s.region ∧
    (beginRestores r s).gate = s.gate ∧ (beginRestores r s).watch = s.watch ∧
    (beginRestores r s).settings = s.settings ∧ (beginRestores r s).link = s.link ∧
    (beginRestores r s).time = s.time ∧ (beginRestores r s).mem = s.mem ∧
    (beginRestores r s).free = s.free ∧ (beginRestores r s).pending = s.pending := by
  simp only [beginRestores]; (repeat' split) <;> simp

@[simp] theorem advanceRollback_keeps (r : Rollback) (w : Word) (s : State) :
    (advanceRollback r w s).straps = s.straps ∧ (advanceRollback r w s).port = s.port ∧
    (advanceRollback r w s).watch = s.watch ∧ (advanceRollback r w s).settings = s.settings ∧
    (advanceRollback r w s).link = s.link ∧ (advanceRollback r w s).time = s.time ∧
    (advanceRollback r w s).mem = s.mem ∧ (advanceRollback r w s).free = s.free ∧
    (advanceRollback r w s).pending = s.pending := by
  simp only [advanceRollback]; (repeat' split) <;> simp

@[simp] theorem withdrawOrder_keeps (s : State) :
    (withdrawOrder s).straps = s.straps ∧ (withdrawOrder s).up = s.up ∧
    (withdrawOrder s).port = s.port ∧ (withdrawOrder s).intake = s.intake ∧
    (withdrawOrder s).queue = s.queue ∧ (withdrawOrder s).engine = s.engine ∧
    (withdrawOrder s).region = s.region ∧ (withdrawOrder s).watch = s.watch ∧
    (withdrawOrder s).settings = s.settings ∧ (withdrawOrder s).events = s.events ∧
    (withdrawOrder s).link = s.link ∧ (withdrawOrder s).time = s.time ∧
    (withdrawOrder s).mem = s.mem ∧ (withdrawOrder s).free = s.free ∧
    (withdrawOrder s).pending = s.pending := by
  simp [withdrawOrder]

@[simp] theorem journalFault_keeps (c : Cause) (b : Bool) (s : State) :
    (journalFault c b s).straps = s.straps ∧ (journalFault c b s).port = s.port ∧
    (journalFault c b s).watch = s.watch ∧ (journalFault c b s).settings = s.settings ∧
    (journalFault c b s).link = s.link ∧ (journalFault c b s).time = s.time ∧
    (journalFault c b s).mem = s.mem ∧ (journalFault c b s).free = s.free ∧
    (journalFault c b s).pending = s.pending := by
  simp only [journalFault]; (repeat' split) <;> simp

@[simp] theorem beginRecord_keeps (i : List Word) (s : State) :
    (beginRecord i s).straps = s.straps ∧ (beginRecord i s).port = s.port ∧
    (beginRecord i s).watch = s.watch ∧ (beginRecord i s).settings = s.settings ∧
    (beginRecord i s).link = s.link ∧ (beginRecord i s).time = s.time ∧
    (beginRecord i s).mem = s.mem ∧ (beginRecord i s).free = s.free ∧
    (beginRecord i s).pending = s.pending := by
  simp only [beginRecord]; (repeat' split) <;> simp

@[simp] theorem countRecord_keeps (w : Word) (s : State) :
    (countRecord w s).straps = s.straps ∧ (countRecord w s).up = s.up ∧
    (countRecord w s).port = s.port ∧ (countRecord w s).intake = s.intake ∧
    (countRecord w s).queue = s.queue ∧ (countRecord w s).region = s.region ∧
    (countRecord w s).gate = s.gate ∧ (countRecord w s).watch = s.watch ∧
    (countRecord w s).settings = s.settings ∧ (countRecord w s).link = s.link ∧
    (countRecord w s).time = s.time ∧ (countRecord w s).mem = s.mem ∧
    (countRecord w s).free = s.free ∧ (countRecord w s).pending = s.pending := by
  simp only [countRecord]; (repeat' split) <;> simp

@[simp] theorem settleSwitch_keeps (w : TableRef) (s : State) :
    (settleSwitch w s).straps = s.straps ∧ (settleSwitch w s).up = s.up ∧
    (settleSwitch w s).port = s.port ∧ (settleSwitch w s).intake = s.intake ∧
    (settleSwitch w s).queue = s.queue ∧ (settleSwitch w s).watch = s.watch ∧
    (settleSwitch w s).settings = s.settings ∧ (settleSwitch w s).events = s.events ∧
    (settleSwitch w s).link = s.link ∧ (settleSwitch w s).time = s.time ∧
    (settleSwitch w s).mem = s.mem ∧ (settleSwitch w s).free = s.free ∧
    (settleSwitch w s).pending = s.pending := by
  simp [settleSwitch]

@[simp] theorem sealComplete_keeps (s : State) :
    (sealComplete s).straps = s.straps ∧ (sealComplete s).port = s.port ∧
    (sealComplete s).watch = s.watch ∧ (sealComplete s).settings = s.settings ∧
    (sealComplete s).link = s.link ∧ (sealComplete s).time = s.time ∧ (sealComplete s).mem = s.mem ∧
    (sealComplete s).free = s.free ∧ (sealComplete s).pending = s.pending := by
  simp only [sealComplete]; (repeat' split) <;> simp

@[simp] theorem endTableRead_keeps (o : TableOutcome) (n i : Nat) (t : Table) (s : State) :
    (endTableRead o n i t s).straps = s.straps ∧ (endTableRead o n i t s).up = s.up ∧
    (endTableRead o n i t s).port = s.port ∧ (endTableRead o n i t s).intake = s.intake ∧
    (endTableRead o n i t s).gate = s.gate ∧ (endTableRead o n i t s).watch = s.watch ∧
    (endTableRead o n i t s).settings = s.settings ∧ (endTableRead o n i t s).link = s.link ∧
    (endTableRead o n i t s).time = s.time ∧ (endTableRead o n i t s).mem = s.mem ∧
    (endTableRead o n i t s).free = s.free ∧ (endTableRead o n i t s).pending = s.pending := by
  simp [endTableRead]

@[simp] theorem takeDescriptor_keeps (k : List Descriptor) (ws : List Word) (s : State) :
    (takeDescriptor k ws s).straps = s.straps ∧ (takeDescriptor k ws s).up = s.up ∧
    (takeDescriptor k ws s).port = s.port ∧ (takeDescriptor k ws s).intake = s.intake ∧
    (takeDescriptor k ws s).gate = s.gate ∧ (takeDescriptor k ws s).watch = s.watch ∧
    (takeDescriptor k ws s).settings = s.settings ∧ (takeDescriptor k ws s).link = s.link ∧
    (takeDescriptor k ws s).time = s.time ∧ (takeDescriptor k ws s).mem = s.mem ∧
    (takeDescriptor k ws s).free = s.free ∧ (takeDescriptor k ws s).pending = s.pending := by
  simp only [takeDescriptor]; (repeat' split) <;> simp

@[simp] theorem advanceDrain_keeps (d : Drain) (w : Word) (s : State) :
    (advanceDrain d w s).straps = s.straps ∧ (advanceDrain d w s).port = s.port ∧
    (advanceDrain d w s).watch = s.watch ∧ (advanceDrain d w s).settings = s.settings ∧
    (advanceDrain d w s).link = s.link ∧ (advanceDrain d w s).time = s.time ∧
    (advanceDrain d w s).mem = s.mem ∧ (advanceDrain d w s).free = s.free ∧
    (advanceDrain d w s).pending = s.pending := by
  simp only [advanceDrain]; (repeat' split) <;> simp

@[simp] theorem setRec_keeps (r : Recovery) (p : RecPhase) (s : State) :
    (setRec r p s).straps = s.straps ∧ (setRec r p s).up = s.up ∧ (setRec r p s).port = s.port ∧
    (setRec r p s).intake = s.intake ∧ (setRec r p s).queue = s.queue ∧
    (setRec r p s).region = s.region ∧ (setRec r p s).gate = s.gate ∧
    (setRec r p s).watch = s.watch ∧ (setRec r p s).settings = s.settings ∧
    (setRec r p s).events = s.events ∧ (setRec r p s).link = s.link ∧ (setRec r p s).time = s.time ∧
    (setRec r p s).mem = s.mem ∧ (setRec r p s).free = s.free ∧
    (setRec r p s).pending = s.pending := by
  simp [setRec]

@[simp] theorem endRecovery_open_keeps (r : Recovery) (o : RestoreOutcome) (s : State) :
    (endRecovery r o openGate s).straps = s.straps ∧ (endRecovery r o openGate s).up = s.up ∧
    (endRecovery r o openGate s).port = s.port ∧ (endRecovery r o openGate s).intake = s.intake ∧
    (endRecovery r o openGate s).region = s.region ∧ (endRecovery r o openGate s).watch = s.watch ∧
    (endRecovery r o openGate s).settings = s.settings ∧ (endRecovery r o openGate s).link = s.link ∧
    (endRecovery r o openGate s).time = s.time ∧ (endRecovery r o openGate s).mem = s.mem ∧
    (endRecovery r o openGate s).free = s.free ∧
    (endRecovery r o openGate s).pending = s.pending := by
  simp [endRecovery]

@[simp] theorem endRecovery_unformatted_keeps (r : Recovery) (o : RestoreOutcome) (s : State) :
    (endRecovery r o (setOpState .unformatted) s).straps = s.straps ∧
    (endRecovery r o (setOpState .unformatted) s).up = s.up ∧
    (endRecovery r o (setOpState .unformatted) s).port = s.port ∧
    (endRecovery r o (setOpState .unformatted) s).intake = s.intake ∧
    (endRecovery r o (setOpState .unformatted) s).region = s.region ∧
    (endRecovery r o (setOpState .unformatted) s).watch = s.watch ∧
    (endRecovery r o (setOpState .unformatted) s).settings = s.settings ∧
    (endRecovery r o (setOpState .unformatted) s).link = s.link ∧
    (endRecovery r o (setOpState .unformatted) s).time = s.time ∧
    (endRecovery r o (setOpState .unformatted) s).mem = s.mem ∧
    (endRecovery r o (setOpState .unformatted) s).free = s.free ∧
    (endRecovery r o (setOpState .unformatted) s).pending = s.pending := by
  simp [endRecovery]

@[simp] theorem rejectStartUpTable_keeps (r : Recovery) (e : TableOutcome) (n i : Nat) (s : State) :
    (rejectStartUpTable r e n i s).straps = s.straps ∧ (rejectStartUpTable r e n i s).up = s.up ∧
    (rejectStartUpTable r e n i s).port = s.port ∧ (rejectStartUpTable r e n i s).intake = s.intake ∧
    (rejectStartUpTable r e n i s).watch = s.watch ∧
    (rejectStartUpTable r e n i s).settings = s.settings ∧
    (rejectStartUpTable r e n i s).link = s.link ∧ (rejectStartUpTable r e n i s).time = s.time ∧
    (rejectStartUpTable r e n i s).mem = s.mem ∧ (rejectStartUpTable r e n i s).free = s.free ∧
    (rejectStartUpTable r e n i s).pending = s.pending := by
  simp [rejectStartUpTable]

@[simp] theorem acceptStartUpTable_keeps (r : Recovery) (t : Table) (s : State) :
    (acceptStartUpTable r t s).straps = s.straps ∧ (acceptStartUpTable r t s).up = s.up ∧
    (acceptStartUpTable r t s).port = s.port ∧ (acceptStartUpTable r t s).intake = s.intake ∧
    (acceptStartUpTable r t s).watch = s.watch ∧ (acceptStartUpTable r t s).settings = s.settings ∧
    (acceptStartUpTable r t s).link = s.link ∧ (acceptStartUpTable r t s).time = s.time ∧
    (acceptStartUpTable r t s).mem = s.mem ∧ (acceptStartUpTable r t s).free = s.free ∧
    (acceptStartUpTable r t s).pending = s.pending := by
  simp [acceptStartUpTable]

@[simp] theorem beginTableLoad_keeps (r : Recovery) (s : State) :
    (beginTableLoad r s).straps = s.straps ∧ (beginTableLoad r s).up = s.up ∧
    (beginTableLoad r s).port = s.port ∧ (beginTableLoad r s).intake = s.intake ∧
    (beginTableLoad r s).watch = s.watch ∧ (beginTableLoad r s).settings = s.settings ∧
    (beginTableLoad r s).link = s.link ∧ (beginTableLoad r s).time = s.time ∧
    (beginTableLoad r s).mem = s.mem ∧ (beginTableLoad r s).free = s.free ∧
    (beginTableLoad r s).pending = s.pending := by
  simp only [beginTableLoad]; (repeat' split) <;> simp

@[simp] theorem takeStartUpDescriptor_keeps (r : Recovery) (k : List Descriptor) (ws : List Word)
    (s : State) :
    (takeStartUpDescriptor r k ws s).straps = s.straps ∧ (takeStartUpDescriptor r k ws s).up = s.up ∧
    (takeStartUpDescriptor r k ws s).port = s.port ∧
    (takeStartUpDescriptor r k ws s).intake = s.intake ∧
    (takeStartUpDescriptor r k ws s).watch = s.watch ∧
    (takeStartUpDescriptor r k ws s).settings = s.settings ∧
    (takeStartUpDescriptor r k ws s).link = s.link ∧ (takeStartUpDescriptor r k ws s).time = s.time ∧
    (takeStartUpDescriptor r k ws s).mem = s.mem ∧ (takeStartUpDescriptor r k ws s).free = s.free ∧
    (takeStartUpDescriptor r k ws s).pending = s.pending := by
  simp only [takeStartUpDescriptor]; (repeat' split) <;> simp

@[simp] theorem endScan_keeps (r : Recovery) (n : Nat) (x : StopReason) (s : State) :
    (endScan r n x s).straps = s.straps ∧ (endScan r n x s).up = s.up ∧
    (endScan r n x s).port = s.port ∧ (endScan r n x s).intake = s.intake ∧
    (endScan r n x s).watch = s.watch ∧ (endScan r n x s).settings = s.settings ∧
    (endScan r n x s).link = s.link ∧ (endScan r n x s).time = s.time ∧
    (endScan r n x s).mem = s.mem ∧ (endScan r n x s).free = s.free ∧
    (endScan r n x s).pending = s.pending := by
  simp only [endScan]; (repeat' split) <;> simp

@[simp] theorem scanSlot_keeps (r : Recovery) (j : Nat) (c : Word) (ws : List Word) (s : State) :
    (scanSlot r j c ws s).straps = s.straps ∧ (scanSlot r j c ws s).up = s.up ∧
    (scanSlot r j c ws s).port = s.port ∧ (scanSlot r j c ws s).intake = s.intake ∧
    (scanSlot r j c ws s).watch = s.watch ∧ (scanSlot r j c ws s).settings = s.settings ∧
    (scanSlot r j c ws s).link = s.link ∧ (scanSlot r j c ws s).time = s.time ∧
    (scanSlot r j c ws s).mem = s.mem ∧ (scanSlot r j c ws s).free = s.free ∧
    (scanSlot r j c ws s).pending = s.pending := by
  simp only [scanSlot]; (repeat' split) <;> simp

@[simp] theorem nextRestore_keeps (r : Recovery) (j : Nat) (s : State) :
    (nextRestore r j s).straps = s.straps ∧ (nextRestore r j s).up = s.up ∧
    (nextRestore r j s).port = s.port ∧ (nextRestore r j s).intake = s.intake ∧
    (nextRestore r j s).queue = s.queue ∧ (nextRestore r j s).region = s.region ∧
    (nextRestore r j s).gate = s.gate ∧ (nextRestore r j s).watch = s.watch ∧
    (nextRestore r j s).settings = s.settings ∧ (nextRestore r j s).events = s.events ∧
    (nextRestore r j s).link = s.link ∧ (nextRestore r j s).time = s.time ∧
    (nextRestore r j s).mem = s.mem ∧ (nextRestore r j s).free = s.free ∧
    (nextRestore r j s).pending = s.pending := by
  simp only [nextRestore]; (repeat' split) <;> simp

@[simp] theorem restoreSlot_keeps (r : Recovery) (j : Nat) (ws : List Word) (s : State) :
    (restoreSlot r j ws s).straps = s.straps ∧ (restoreSlot r j ws s).up = s.up ∧
    (restoreSlot r j ws s).port = s.port ∧ (restoreSlot r j ws s).intake = s.intake ∧
    (restoreSlot r j ws s).queue = s.queue ∧ (restoreSlot r j ws s).region = s.region ∧
    (restoreSlot r j ws s).gate = s.gate ∧ (restoreSlot r j ws s).watch = s.watch ∧
    (restoreSlot r j ws s).settings = s.settings ∧ (restoreSlot r j ws s).events = s.events ∧
    (restoreSlot r j ws s).link = s.link ∧ (restoreSlot r j ws s).time = s.time ∧
    (restoreSlot r j ws s).mem = s.mem ∧ (restoreSlot r j ws s).free = s.free ∧
    (restoreSlot r j ws s).pending = s.pending := by
  simp only [restoreSlot]; (repeat' split) <;> simp

@[simp] theorem recoverExhausted_keeps (s : State) :
    (recoverExhausted s).straps = s.straps ∧ (recoverExhausted s).up = s.up ∧
    (recoverExhausted s).port = s.port ∧ (recoverExhausted s).intake = s.intake ∧
    (recoverExhausted s).queue = s.queue ∧ (recoverExhausted s).engine = s.engine ∧
    (recoverExhausted s).region = s.region ∧ (recoverExhausted s).watch = s.watch ∧
    (recoverExhausted s).settings = s.settings ∧ (recoverExhausted s).events = s.events ∧
    (recoverExhausted s).link = s.link ∧ (recoverExhausted s).time = s.time ∧
    (recoverExhausted s).mem = s.mem ∧ (recoverExhausted s).free = s.free ∧
    (recoverExhausted s).pending = s.pending := by
  simp only [recoverExhausted]; (repeat' split) <;> simp

@[simp] theorem recoveryVoided_keeps (r : Recovery) (s : State) :
    (recoveryVoided r s).straps = s.straps ∧ (recoveryVoided r s).up = s.up ∧
    (recoveryVoided r s).port = s.port ∧ (recoveryVoided r s).watch = s.watch ∧
    (recoveryVoided r s).settings = s.settings ∧ (recoveryVoided r s).link = s.link ∧
    (recoveryVoided r s).time = s.time ∧ (recoveryVoided r s).mem = s.mem ∧
    (recoveryVoided r s).free = s.free ∧ (recoveryVoided r s).pending = s.pending := by
  simp [recoveryVoided]

@[simp] theorem decideRecovery_keeps (r : Recovery) (ws0 ws1 : List Word) (s : State) :
    (decideRecovery r ws0 ws1 s).straps = s.straps ∧ (decideRecovery r ws0 ws1 s).up = s.up ∧
    (decideRecovery r ws0 ws1 s).port = s.port ∧ (decideRecovery r ws0 ws1 s).watch = s.watch ∧
    (decideRecovery r ws0 ws1 s).settings = s.settings ∧ (decideRecovery r ws0 ws1 s).link = s.link ∧
    (decideRecovery r ws0 ws1 s).time = s.time ∧ (decideRecovery r ws0 ws1 s).mem = s.mem ∧
    (decideRecovery r ws0 ws1 s).free = s.free ∧
    (decideRecovery r ws0 ws1 s).pending = s.pending := by
  simp only [decideRecovery]; (repeat' split) <;> simp

@[simp] theorem advanceRecovery_keeps (r : Recovery) (w : Word) (s : State) :
    (advanceRecovery r w s).straps = s.straps ∧ (advanceRecovery r w s).up = s.up ∧
    (advanceRecovery r w s).port = s.port ∧ (advanceRecovery r w s).watch = s.watch ∧
    (advanceRecovery r w s).settings = s.settings ∧ (advanceRecovery r w s).link = s.link ∧
    (advanceRecovery r w s).time = s.time ∧ (advanceRecovery r w s).mem = s.mem ∧
    (advanceRecovery r w s).free = s.free ∧ (advanceRecovery r w s).pending = s.pending := by
  simp only [advanceRecovery]; (repeat' split) <;> simp

@[simp] theorem setFormat_keeps (f : Format) (p : FormatPhase) (s : State) :
    (setFormat f p s).straps = s.straps ∧ (setFormat f p s).up = s.up ∧
    (setFormat f p s).port = s.port ∧ (setFormat f p s).intake = s.intake ∧
    (setFormat f p s).queue = s.queue ∧ (setFormat f p s).region = s.region ∧
    (setFormat f p s).gate = s.gate ∧ (setFormat f p s).watch = s.watch ∧
    (setFormat f p s).settings = s.settings ∧ (setFormat f p s).events = s.events ∧
    (setFormat f p s).link = s.link ∧ (setFormat f p s).time = s.time ∧
    (setFormat f p s).mem = s.mem ∧ (setFormat f p s).free = s.free ∧
    (setFormat f p s).pending = s.pending := by
  simp [setFormat]

@[simp] theorem decideFormat_keeps (f : Format) (ws0 ws1 : List Word) (s : State) :
    (decideFormat f ws0 ws1 s).straps = s.straps ∧ (decideFormat f ws0 ws1 s).up = s.up ∧
    (decideFormat f ws0 ws1 s).port = s.port ∧ (decideFormat f ws0 ws1 s).intake = s.intake ∧
    (decideFormat f ws0 ws1 s).queue = s.queue ∧ (decideFormat f ws0 ws1 s).region = s.region ∧
    (decideFormat f ws0 ws1 s).gate = s.gate ∧ (decideFormat f ws0 ws1 s).watch = s.watch ∧
    (decideFormat f ws0 ws1 s).settings = s.settings ∧ (decideFormat f ws0 ws1 s).events = s.events ∧
    (decideFormat f ws0 ws1 s).link = s.link ∧ (decideFormat f ws0 ws1 s).time = s.time ∧
    (decideFormat f ws0 ws1 s).mem = s.mem ∧ (decideFormat f ws0 ws1 s).free = s.free ∧
    (decideFormat f ws0 ws1 s).pending = s.pending := by
  simp [decideFormat]

@[simp] theorem endFormat_keeps (f : Format) (s : State) :
    (endFormat f s).straps = s.straps ∧ (endFormat f s).up = s.up ∧ (endFormat f s).port = s.port ∧
    (endFormat f s).queue = s.queue ∧ (endFormat f s).region = s.region ∧
    (endFormat f s).watch = s.watch ∧ (endFormat f s).settings = s.settings ∧
    (endFormat f s).link = s.link ∧ (endFormat f s).time = s.time ∧ (endFormat f s).mem = s.mem ∧
    (endFormat f s).free = s.free ∧ (endFormat f s).pending = s.pending := by
  simp [endFormat]

@[simp] theorem failFormat_keeps (s : State) :
    (failFormat s).straps = s.straps ∧ (failFormat s).up = s.up ∧ (failFormat s).port = s.port ∧
    (failFormat s).queue = s.queue ∧ (failFormat s).region = s.region ∧
    (failFormat s).watch = s.watch ∧ (failFormat s).settings = s.settings ∧
    (failFormat s).events = s.events ∧ (failFormat s).link = s.link ∧ (failFormat s).time = s.time ∧
    (failFormat s).mem = s.mem ∧ (failFormat s).free = s.free ∧
    (failFormat s).pending = s.pending := by
  simp [failFormat]

@[simp] theorem advanceFormat_keeps (f : Format) (w : Word) (s : State) :
    (advanceFormat f w s).straps = s.straps ∧ (advanceFormat f w s).up = s.up ∧
    (advanceFormat f w s).port = s.port ∧ (advanceFormat f w s).queue = s.queue ∧
    (advanceFormat f w s).region = s.region ∧ (advanceFormat f w s).watch = s.watch ∧
    (advanceFormat f w s).settings = s.settings ∧ (advanceFormat f w s).link = s.link ∧
    (advanceFormat f w s).time = s.time ∧ (advanceFormat f w s).mem = s.mem ∧
    (advanceFormat f w s).free = s.free ∧ (advanceFormat f w s).pending = s.pending := by
  simp only [advanceFormat]; (repeat' split) <;> simp

@[simp] theorem advanceEngine_keeps (w : Word) (s : State) :
    (advanceEngine w s).straps = s.straps ∧ (advanceEngine w s).port = s.port ∧
    (advanceEngine w s).watch = s.watch ∧ (advanceEngine w s).settings = s.settings ∧
    (advanceEngine w s).link = s.link ∧ (advanceEngine w s).time = s.time ∧
    (advanceEngine w s).mem = s.mem ∧ (advanceEngine w s).free = s.free ∧
    (advanceEngine w s).pending = s.pending := by
  simp only [advanceEngine]; (repeat' split) <;> simp

@[simp] theorem maskTriggers_keeps (p f : Bool) (s : State) :
    (maskTriggers p f s).straps = s.straps ∧ (maskTriggers p f s).port = s.port ∧
    (maskTriggers p f s).watch = s.watch ∧ (maskTriggers p f s).settings = s.settings ∧
    (maskTriggers p f s).link = s.link ∧ (maskTriggers p f s).time = s.time ∧
    (maskTriggers p f s).mem = s.mem ∧ (maskTriggers p f s).pending = s.pending := by
  simp only [maskTriggers]; (repeat' split) <;> simp

@[simp] theorem settingEffect_keeps (x : Setting) (b : State) (s : State) :
    (settingEffect x b s).straps = s.straps ∧ (settingEffect x b s).port = s.port ∧
    (settingEffect x b s).watch = s.watch ∧ (settingEffect x b s).settings = s.settings ∧
    (settingEffect x b s).link = s.link ∧ (settingEffect x b s).time = s.time ∧
    (settingEffect x b s).mem = s.mem ∧ (settingEffect x b s).pending = s.pending := by
  simp only [settingEffect]; (repeat' split) <;> simp

@[simp] theorem holdRead_keeps (s : State) :
    (holdRead s).straps = s.straps ∧ (holdRead s).port = s.port ∧ (holdRead s).intake = s.intake ∧
    (holdRead s).queue = s.queue ∧ (holdRead s).engine = s.engine ∧ (holdRead s).region = s.region ∧
    (holdRead s).gate = s.gate ∧ (holdRead s).watch = s.watch ∧ (holdRead s).settings = s.settings ∧
    (holdRead s).events = s.events ∧ (holdRead s).link = s.link ∧ (holdRead s).time = s.time ∧
    (holdRead s).mem = s.mem ∧ (holdRead s).free = s.free ∧ (holdRead s).pending = s.pending := by
  simp only [holdRead]; (repeat' split) <;> simp

@[simp] theorem grant_keeps (o : Owner) (a : Access) (n : Nat) (s : State) :
    (grant o a n s).straps = s.straps ∧ (grant o a n s).up = s.up ∧
    (grant o a n s).intake = s.intake ∧ (grant o a n s).queue = s.queue ∧
    (grant o a n s).engine = s.engine ∧ (grant o a n s).region = s.region ∧
    (grant o a n s).gate = s.gate ∧ (grant o a n s).watch = s.watch ∧
    (grant o a n s).settings = s.settings ∧ (grant o a n s).events = s.events ∧
    (grant o a n s).link = s.link ∧ (grant o a n s).time = s.time ∧ (grant o a n s).mem = s.mem ∧
    (grant o a n s).free = s.free ∧ (grant o a n s).pending = s.pending := by
  simp [grant]

@[simp] theorem takeHead_keeps (s : State) :
    (takeHead s).straps = s.straps ∧ (takeHead s).up = s.up ∧ (takeHead s).port = s.port ∧
    (takeHead s).intake = s.intake ∧ (takeHead s).queue = s.queue ∧ (takeHead s).region = s.region ∧
    (takeHead s).gate = s.gate ∧ (takeHead s).watch = s.watch ∧ (takeHead s).settings = s.settings ∧
    (takeHead s).events = s.events ∧ (takeHead s).link = s.link ∧ (takeHead s).time = s.time ∧
    (takeHead s).mem = s.mem ∧ (takeHead s).free = s.free ∧ (takeHead s).pending = s.pending := by
  simp only [takeHead]; (repeat' split) <;> simp

@[simp] theorem beginOrdered_keeps (s : State) :
    (beginOrdered s).straps = s.straps ∧ (beginOrdered s).port = s.port ∧
    (beginOrdered s).intake = s.intake ∧ (beginOrdered s).region = s.region ∧
    (beginOrdered s).watch = s.watch ∧ (beginOrdered s).settings = s.settings ∧
    (beginOrdered s).link = s.link ∧ (beginOrdered s).time = s.time ∧
    (beginOrdered s).mem = s.mem ∧ (beginOrdered s).free = s.free ∧
    (beginOrdered s).pending = s.pending := by
  simp only [beginOrdered, beginRollback]; (repeat' split) <;> simp

@[simp] theorem startWork_keeps (s : State) :
    (startWork s).straps = s.straps ∧ (startWork s).port = s.port ∧
    (startWork s).intake = s.intake ∧ (startWork s).region = s.region ∧
    (startWork s).watch = s.watch ∧ (startWork s).settings = s.settings ∧
    (startWork s).link = s.link ∧ (startWork s).time = s.time ∧ (startWork s).mem = s.mem ∧
    (startWork s).free = s.free ∧ (startWork s).pending = s.pending := by
  simp [startWork]

@[simp] theorem arbitrate_keeps (s : State) :
    (arbitrate s).straps = s.straps ∧ (arbitrate s).up = s.up ∧ (arbitrate s).intake = s.intake ∧
    (arbitrate s).queue = s.queue ∧ (arbitrate s).engine = s.engine ∧
    (arbitrate s).region = s.region ∧ (arbitrate s).gate = s.gate ∧ (arbitrate s).watch = s.watch ∧
    (arbitrate s).settings = s.settings ∧ (arbitrate s).events = s.events ∧
    (arbitrate s).link = s.link ∧ (arbitrate s).time = s.time ∧ (arbitrate s).mem = s.mem ∧
    (arbitrate s).free = s.free ∧ (arbitrate s).pending = s.pending := by
  simp only [arbitrate]; (repeat' split) <;> simp

@[simp] theorem finishRead_keeps (w : Word) (s : State) :
    (finishRead w s).straps = s.straps ∧ (finishRead w s).port = s.port ∧
    (finishRead w s).settings = s.settings ∧ (finishRead w s).link = s.link ∧
    (finishRead w s).time = s.time ∧ (finishRead w s).mem = s.mem ∧ (finishRead w s).free = s.free ∧
    (finishRead w s).pending = s.pending := by
  simp only [finishRead]; (repeat' split) <;> simp

@[simp] theorem storeSeal_keeps (b : Bool) (s : State) :
    (storeSeal b s).straps = s.straps ∧ (storeSeal b s).up = s.up ∧ (storeSeal b s).port = s.port ∧
    (storeSeal b s).queue = s.queue ∧ (storeSeal b s).engine = s.engine ∧
    (storeSeal b s).region = s.region ∧ (storeSeal b s).gate = s.gate ∧
    (storeSeal b s).watch = s.watch ∧ (storeSeal b s).settings = s.settings ∧
    (storeSeal b s).events = s.events ∧ (storeSeal b s).link = s.link ∧
    (storeSeal b s).time = s.time ∧ (storeSeal b s).mem = s.mem ∧ (storeSeal b s).free = s.free ∧
    (storeSeal b s).pending = s.pending := by
  simp [storeSeal]

@[simp] theorem sampleFresh_keeps (l : InputLine) (b : Bool) (s : State) :
    (sampleFresh l b s).straps = s.straps ∧ (sampleFresh l b s).up = s.up ∧
    (sampleFresh l b s).port = s.port ∧ (sampleFresh l b s).intake = s.intake ∧
    (sampleFresh l b s).queue = s.queue ∧ (sampleFresh l b s).engine = s.engine ∧
    (sampleFresh l b s).region = s.region ∧ (sampleFresh l b s).watch = s.watch ∧
    (sampleFresh l b s).settings = s.settings ∧ (sampleFresh l b s).events = s.events ∧
    (sampleFresh l b s).link = s.link ∧ (sampleFresh l b s).time = s.time ∧
    (sampleFresh l b s).mem = s.mem ∧ (sampleFresh l b s).free = s.free ∧
    (sampleFresh l b s).pending = s.pending := by
  simp only [sampleFresh]; (repeat' split) <;> simp

@[simp] theorem activateLine_keeps (l : InputLine) (n : Nat) (s : State) :
    (activateLine l n s).straps = s.straps ∧ (activateLine l n s).up = s.up ∧
    (activateLine l n s).port = s.port ∧ (activateLine l n s).intake = s.intake ∧
    (activateLine l n s).queue = s.queue ∧ (activateLine l n s).engine = s.engine ∧
    (activateLine l n s).region = s.region ∧ (activateLine l n s).watch = s.watch ∧
    (activateLine l n s).settings = s.settings ∧ (activateLine l n s).events = s.events ∧
    (activateLine l n s).link = s.link ∧ (activateLine l n s).time = s.time ∧
    (activateLine l n s).mem = s.mem ∧ (activateLine l n s).free = s.free ∧
    (activateLine l n s).pending = s.pending := by
  simp [activateLine]

@[simp] theorem takeAuto_keeps (s : State) :
    (takeAuto s).straps = s.straps ∧ (takeAuto s).up = s.up ∧ (takeAuto s).port = s.port ∧
    (takeAuto s).engine = s.engine ∧ (takeAuto s).gate = s.gate ∧ (takeAuto s).watch = s.watch ∧
    (takeAuto s).settings = s.settings ∧ (takeAuto s).events = s.events ∧
    (takeAuto s).link = s.link ∧ (takeAuto s).time = s.time ∧ (takeAuto s).mem = s.mem ∧
    (takeAuto s).free = s.free ∧ (takeAuto s).pending = s.pending := by
  simp only [takeAuto]; (repeat' split) <;> simp

@[simp] theorem takeRead_keeps (a : Addr) (s : State) :
    (takeRead a s).straps = s.straps ∧ (takeRead a s).port = s.port ∧
    (takeRead a s).settings = s.settings ∧ (takeRead a s).link = s.link ∧
    (takeRead a s).time = s.time ∧ (takeRead a s).mem = s.mem ∧ (takeRead a s).free = s.free ∧
    (takeRead a s).pending = s.pending := by
  simp only [takeRead]; (repeat' split) <;> simp

@[simp] theorem acceptOrWait_keeps (a : Addr) (d : Word) (l : Lanes) (k : RegionClass) (g : Word)
    (s : State) :
    (acceptOrWait a d l k g s).straps = s.straps ∧ (acceptOrWait a d l k g s).port = s.port ∧
    (acceptOrWait a d l k g s).engine = s.engine ∧ (acceptOrWait a d l k g s).region = s.region ∧
    (acceptOrWait a d l k g s).gate = s.gate ∧ (acceptOrWait a d l k g s).watch = s.watch ∧
    (acceptOrWait a d l k g s).settings = s.settings ∧ (acceptOrWait a d l k g s).events = s.events ∧
    (acceptOrWait a d l k g s).link = s.link ∧ (acceptOrWait a d l k g s).time = s.time ∧
    (acceptOrWait a d l k g s).mem = s.mem ∧ (acceptOrWait a d l k g s).free = s.free ∧
    (acceptOrWait a d l k g s).pending = s.pending := by
  simp only [acceptOrWait]; (repeat' split) <;> simp

@[simp] theorem takeWrite_keeps (a : Addr) (d : Word) (l : Lanes) (s : State) :
    (takeWrite a d l s).straps = s.straps ∧ (takeWrite a d l s).port = s.port ∧
    (takeWrite a d l s).settings = s.settings ∧ (takeWrite a d l s).link = s.link ∧
    (takeWrite a d l s).time = s.time ∧ (takeWrite a d l s).mem = s.mem ∧
    (takeWrite a d l s).free = s.free ∧ (takeWrite a d l s).pending = s.pending := by
  simp only [takeWrite]; (repeat' split) <;> simp

@[simp] theorem expireHold_keeps (c : Cycle) (s : State) :
    (expireHold c s).straps = s.straps ∧ (expireHold c s).port = s.port ∧
    (expireHold c s).settings = s.settings ∧ (expireHold c s).link = s.link ∧
    (expireHold c s).time = s.time ∧ (expireHold c s).mem = s.mem ∧ (expireHold c s).free = s.free ∧
    (expireHold c s).pending = s.pending := by
  simp only [expireHold]; (repeat' split) <;> simp

end Sys2Proof.Machine
end

