-- ==== Sys2Proof/Laws/Events.lean ====
section
/-! SUPPORT. What raising an event, counting, comparing and refusing do to the Event Unit and the watch units. -/

namespace Sys2Proof.Machine

theorem Event.bit_lt (e : Event) : e.bit < 13 := by
  cases e <;> simp [Event.bit]
  omega

theorem Event.bit_inj {e f : Event} (h : e.bit = f.bit) : e = f := by
  cases e <;> cases f <;> simp_all [Event.bit] <;> omega

theorem Event.mask_bit (e f : Event) : e.mask.getLsbD f.bit = decide (f = e) := by
  have h1 := f.bit_lt
  have h2 := e.bit_lt
  by_cases h : f = e
  · subst h; simp [Event.mask, h1]
  · have : f.bit ≠ e.bit := fun x => h (Event.bit_inj x)
    simp only [Event.mask, BitVec.getLsbD_shiftLeft, h, decide_false]
    by_cases hlt : f.bit < e.bit
    · simp [hlt]
    · simp only [BitVec.getLsbD_one]; simp; omega

theorem Event.and_mask_eq_zero (x : BitVec 13) (e : Event) :
    x &&& e.mask = 0 ↔ x.getLsbD e.bit = false := by
  constructor
  · intro h
    have h2 : (x &&& e.mask).getLsbD e.bit = false := by rw [h]; simp
    rw [BitVec.getLsbD_and, Event.mask_bit] at h2
    simpa using h2
  · intro h
    apply BitVec.eq_of_getLsbD_eq
    intro i hi
    by_cases hie : i = e.bit
    · subst hie; simp [h]
    · have : e.mask.getLsbD i = false := by
        have h2 := e.bit_lt
        simp only [Event.mask, BitVec.getLsbD_shiftLeft, BitVec.getLsbD_one]
        simp only [Bool.and_eq_false_iff]
        by_cases hlt : i < e.bit
        · left; right; simpa using hlt
        · right; simp; omega
      simp [this]

theorem Events.level_flags (ev : Events) (cfg : Settings) : (ev.level cfg).flags = ev.flags := rfl

theorem Events.request_flags (ev : Events) (cfg : Settings) : (ev.request cfg).flags = ev.flags := rfl

/-- Raising an event sets its flag and touches nothing but flags, ATTN and the pulse. -/
theorem Events.raise_flags (ev : Events) (cfg : Settings) (e : Event) :
    (ev.raise cfg e).flags = ev.flags ||| e.mask := by
  unfold Events.raise; split <;> (try split) <;> rfl

theorem Events.raise_rest (ev : Events) (cfg : Settings) (e : Event) :
    (ev.raise cfg e).counters = ev.counters ∧ (ev.raise cfg e).refusal = ev.refusal ∧
    (ev.raise cfg e).restore = ev.restore := by
  unfold Events.raise; split <;> (try split) <;> exact ⟨rfl, rfl, rfl⟩

/-- In LEVEL mode ATTN follows the enabled flags, with the new one. -/
theorem Events.raise_level (ev : Events) (cfg : Settings) (e : Event) (h : cfg.attnMode = .level) :
    ev.raise cfg e = { ev with
      flags := ev.flags ||| e.mask, attn := decide ((ev.flags ||| e.mask) &&& cfg.enables ≠ 0) } := by
  simp [Events.raise, h, Events.level]

/-- In PULSE mode an enabled flag that was clear makes a request (R180 case 1). -/
theorem Events.raise_request (ev : Events) (cfg : Settings) (e : Event) (h : cfg.attnMode = .pulse)
    (hc : ev.flags.getLsbD e.bit = false) (hn : cfg.enables.getLsbD e.bit = true) :
    ev.raise cfg e = { ev with
      flags := ev.flags ||| e.mask, attn := true, pulse := some cfg.attnWidth.toNat } := by
  have h1 : ev.flags &&& e.mask = 0 := (Event.and_mask_eq_zero _ _).2 hc
  have h2 : cfg.enables &&& e.mask ≠ 0 := by rw [Ne, Event.and_mask_eq_zero, hn]; simp
  simp only [Events.raise, h, h1, h2, Events.request, ne_eq, not_false_eq_true, and_self, if_true]

/-- In PULSE mode a flag that was set, or is not enabled, makes none. -/
theorem Events.raise_silent (ev : Events) (cfg : Settings) (e : Event) (h : cfg.attnMode = .pulse)
    (hc : ev.flags.getLsbD e.bit = true ∨ cfg.enables.getLsbD e.bit = false) :
    ev.raise cfg e = { ev with flags := ev.flags ||| e.mask } := by
  simp only [Events.raise, h, ne_eq, Event.and_mask_eq_zero]
  rcases hc with hc | hc <;> simp [hc]

@[simp] theorem raise_events (e : Event) (s : State) :
    (raise e s).events.counters = s.events.counters ∧ (raise e s).events.refusal = s.events.refusal ∧
    (raise e s).events.restore = s.events.restore := by
  simpa [raise] using s.events.raise_rest s.settings e

@[simp] theorem raise_flagged (e f : Event) (s : State) :
    (raise e s).flagged f = (s.flagged f || decide (f = e)) := by
  simp [State.flagged, raise, Events.raise_flags, Event.mask_bit]

@[simp] theorem count_flagged (c : Counter) (f : Event) (s : State) :
    (count c s).flagged f = s.flagged f := by simp [State.flagged, count]

@[simp] theorem setUp_flagged (x) (f : Event) (s : State) : (s.setUp x).flagged f = s.flagged f := rfl
@[simp] theorem setGate_flagged (x) (f : Event)
    (s : State) : (s.setGate x).flagged f = s.flagged f := rfl
@[simp] theorem setQueue_flagged (x) (f : Event)
    (s : State) : (s.setQueue x).flagged f = s.flagged f := rfl
@[simp] theorem setIntake_flagged (x) (f : Event)
    (s : State) : (s.setIntake x).flagged f = s.flagged f := rfl
@[simp] theorem setEngine_flagged (x) (f : Event)
    (s : State) : (s.setEngine x).flagged f = s.flagged f := rfl
@[simp] theorem setRegion_flagged (x) (f : Event)
    (s : State) : (s.setRegion x).flagged f = s.flagged f := rfl
@[simp] theorem setWatch_flagged (x) (f : Event)
    (s : State) : (s.setWatch x).flagged f = s.flagged f := rfl
@[simp] theorem setLink_flagged (x) (f : Event)
    (s : State) : (s.setLink x).flagged f = s.flagged f := rfl
@[simp] theorem setPort_flagged (x) (f : Event)
    (s : State) : (s.setPort x).flagged f = s.flagged f := rfl
@[simp] theorem setMem_flagged (x) (f : Event) (s : State) : (s.setMem x).flagged f = s.flagged f := rfl
@[simp] theorem setTime_flagged (x) (f : Event)
    (s : State) : (s.setTime x).flagged f = s.flagged f := rfl
@[simp] theorem setSettings_flagged (x) (f : Event)
    (s : State) : (s.setSettings x).flagged f = s.flagged f := rfl
@[simp] theorem setFree_flagged (x) (f : Event)
    (s : State) : (s.setFree x).flagged f = s.flagged f := rfl
@[simp] theorem setPending_flagged (x) (f : Event)
    (s : State) : (s.setPending x).flagged f = s.flagged f := rfl

/-! ### Refusals -/

/-- A refusal is what R35 and R182 say, and sets the flag of its reason. -/
theorem refuse_spec (a : Addr) (d : Direction) (why : Reason) (tag : Word) (s : State) :
    s.Refuses (refuse a d why tag s) a d why tag ∧ (refuse a d why tag s).watch = s.watch ∧
    s.FlagsGain (refuse a d why tag s) (fun e => decide (e = why.event)) := by
  refine ⟨?_, ?_, ?_⟩
  · cases d <;> cases why <;>
      simp [State.Refuses, State.SameWork, refuse, endCycle, Reason.counter, count, Counters.inc]
  · cases d <;> simp [refuse]
  · intro e
    cases d <;> simp [refuse, endCycle] <;> simp [State.flagged]

/-! ### Comparisons -/

theorem Four.get_put_same {α : Type} (x : Four α) (n : Fin 4) (a : α) : (x.put n a).get n = a := by
  match n with
  | 0 | 1 | 2 | 3 => rfl

theorem Four.get_put_other {α : Type} (x : Four α) (n m : Fin 4) (a : α) (h : m ≠ n) :
    (x.put n a).get m = x.get m := by
  match n, m, h with
  | 0, 0, h | 1, 1, h | 2, 2, h | 3, 3, h => exact absurd rfl h
  | 0, 1, _ | 0, 2, _ | 0, 3, _ | 1, 0, _ | 1, 2, _ | 1, 3, _ | 2, 0, _ | 2, 1, _ | 2, 3, _
  | 3, 0, _ | 3, 1, _ | 3, 2, _ => rfl

theorem compareUnit_watch (n m : Fin 4) (held : Four WatchSettings) (c : WatchCapture) (s : State) :
    (compareUnit n held c s).watch.get m =
      if m = n ∧ (held.get n).hits c = true then (s.watch.get n).hit c else s.watch.get m := by
  unfold compareUnit
  by_cases h : (held.get n).hits c = true
  · by_cases e : m = n
    · subst e; simp [h, Four.get_put_same]
    · simp [h, e, Four.get_put_other]
  · simp [h]

theorem compareUnit_flagged (n : Fin 4) (held : Four WatchSettings) (c : WatchCapture) (s : State)
    (e : Event) :
    (compareUnit n held c s).flagged e =
      (s.flagged e || ((held.get n).hits c && decide (e = .watch n))) := by
  unfold compareUnit
  by_cases h : (held.get n).hits c = true
  · simp [h]
  · simp [h]

@[simp] theorem compareUnit_events (n : Fin 4) (held : Four WatchSettings) (c : WatchCapture)
    (s : State) :
    (compareUnit n held c s).events.counters = s.events.counters ∧
    (compareUnit n held c s).events.refusal = s.events.refusal ∧
    (compareUnit n held c s).events.restore = s.events.restore := by
  unfold compareUnit; split <;> simp

@[simp] theorem compareAll_events (held : Four WatchSettings) (c : WatchCapture) (s : State) :
    (compareAll held c s).events.counters = s.events.counters ∧
    (compareAll held c s).events.refusal = s.events.refusal ∧
    (compareAll held c s).events.restore = s.events.restore := by
  simp [compareAll]

theorem compareUnit_settings (n : Fin 4) (held : Four WatchSettings) (c : WatchCapture) (s : State) :
    (compareUnit n held c s).watchSettings = s.watchSettings := by
  unfold compareUnit
  split
  · match n with
    | 0 | 1 | 2 | 3 => rfl
  · rfl

/-- A comparison leaves the settings of the units alone. -/
theorem compareAll_settings (held : Four WatchSettings) (c : WatchCapture) (s : State) :
    (compareAll held c s).watchSettings = s.watchSettings := by
  simp [compareAll, compareUnit_settings]

/-- A comparison is what R143 and R147 say of each unit, and sets the flags of the units that hit. -/
theorem compareAll_spec (held : Four WatchSettings) (c : WatchCapture) (s : State) :
    s.Compares (compareAll held c s) held c ∧ s.FlagsGain (compareAll held c s) (hitEvent held c) := by
  constructor
  · intro n
    have hh : ∀ u : WatchUnit, u.hit c =
        { u with hits := satInc u.hits, capture := some (u.capture.getD c) } := by
      intro u; unfold WatchUnit.hit; split <;> simp_all
    match n with
    | 0 | 1 | 2 | 3 => simp [compareAll, compareUnit_watch, hh]
  · intro e
    match e with
    | .watch n =>
      match n with
      | 0 | 1 | 2 | 3 => simp [compareAll, compareUnit_flagged, hitEvent]
    | .groupSealed | .voided | .froze | .tableReady | .tableError | .refused | .waitOut | .recovered
    | .formatted => simp [compareAll, compareUnit_flagged, hitEvent]

end Sys2Proof.Machine
end

