-- ==== Sys2Proof/Laws/Control.lean ====
section
/-! SUPPORT. What the shared operations of the control link do: the taking of a command, settings, tokens, discard orders, triggers. -/

namespace Sys2Proof.Machine

theorem awaitsCommand_of_frame {s : State} (h : s.link.frame = some { taken := none }) : s.awaitsCommand = true := by
  simp [State.awaitsCommand, h]

theorem takeCommand_taken {s : State} (h : s.link.frame = some { taken := none }) (n owner) :
    takeCommand n owner s = (owner s).state.answered n (owner s).result (owner s).response := by
  simp [takeCommand, awaitsCommand_of_frame h, State.answered]

theorem takeCommand_outside {s : State} (h : s.link.frame ≠ some { taken := none }) (n owner) :
    takeCommand n owner s = s := by
  have : s.awaitsCommand = false := by
    unfold State.awaitsCommand
    cases hf : s.link.frame with
    | none => rfl
    | some f => cases ht : f.taken with
      | none => exact absurd (by rw [hf]; cases f; simp_all) h
      | some x => simp [ht]
  simp [takeCommand, this]

theorem unlessBusy_busy {s : State} (h : s.gate.opState = .recovering ∨ s.gate.opState = .formatting) (owner) :
    unlessBusy owner s = plain .busy s := by
  rcases h with h | h <;> simp [unlessBusy, h]

theorem unlessBusy_free {s : State} (h1 : s.gate.opState ≠ .recovering)
    (h2 : s.gate.opState ≠ .formatting) (owner) :
    unlessBusy owner s = owner s := by
  unfold unlessBusy; cases h : s.gate.opState <;> simp_all

theorem takeCommit_of_not_done (s : State) (h : s.commitStep.result ≠ .done) : takeCommit s = s := by
  unfold takeCommit
  cases h' : s.commitStep <;> simp_all [CommitStep.result]

theorem word_le_one {v : Word} (h : v.toNat ≤ 1) : v = 0 ∨ v = 1 := by
  rcases (by omega : v.toNat = 0 ∨ v.toNat = 1) with h | h
  · left; exact BitVec.eq_of_toNat_eq h
  · right; exact BitVec.eq_of_toNat_eq h

theorem word_le_two {v : Word} (h : v.toNat ≤ 2) : v = 0 ∨ v = 1 ∨ v = 2 := by
  rcases (by omega : v.toNat = 0 ∨ v.toNat = 1 ∨ v.toNat = 2) with h | h | h
  · left; exact BitVec.eq_of_toNat_eq h
  · right; left; exact BitVec.eq_of_toNat_eq h
  · right; right; exact BitVec.eq_of_toNat_eq h

theorem word_le_three {v : Word} (h : v.toNat ≤ 3) : v = 0 ∨ v = 1 ∨ v = 2 ∨ v = 3 := by
  rcases (by omega : v.toNat ≤ 2 ∨ v.toNat = 3) with h | h
  · rcases word_le_two h with h | h | h <;> simp [h]
  · right; right; right; exact BitVec.eq_of_toNat_eq h

theorem word_le_four {v : Word} (h : v.toNat ≤ 4) : v = 0 ∨ v = 1 ∨ v = 2 ∨ v = 3 ∨ v = 4 := by
  rcases (by omega : v.toNat ≤ 3 ∨ v.toNat = 4) with h | h
  · rcases word_le_three h with h | h | h | h <;> simp [h]
  · right; right; right; right; exact BitVec.eq_of_toNat_eq h

theorem zeroExtend_extract_small {v : Word} {n : Nat} (h : v.toNat < 2 ^ n) : (v.extractLsb' 0 n).zeroExtend 16 = v := by
  apply BitVec.eq_of_toNat_eq
  simp only [BitVec.truncate_eq_setWidth, BitVec.toNat_setWidth, BitVec.extractLsb'_toNat,
      Nat.shiftRight_zero]
  rw [Nat.mod_eq_of_lt h]; exact Nat.mod_eq_of_lt v.isLt

theorem addrUpper_withUpper (a v) : addrUpper (withUpper a v) = (v.extractLsb' 0 5).zeroExtend 16 := by
  simp only [addrUpper, withUpper, addrLower]; congr 1; ext i hi
  simp only [BitVec.getElem_extractLsb', BitVec.getLsbD_append]; simp [hi]

theorem addrLower_withUpper (a v) : addrLower (withUpper a v) = addrLower a := by
  simp only [addrLower, withUpper]; ext i hi
  simp only [BitVec.getElem_extractLsb', BitVec.getLsbD_append]; simp [hi]

theorem addrUpper_withLower (a v) : addrUpper (withLower a v) = addrUpper a := by
  simp only [addrUpper, withLower]; congr 1; ext i hi
  simp only [BitVec.getElem_extractLsb', BitVec.getLsbD_append]; simp [hi]

theorem addrLower_withLower (a v) : addrLower (withLower a v) = v := by
  simp only [addrLower, withLower]; ext i hi
  simp only [BitVec.getElem_extractLsb', BitVec.getLsbD_append]; simp [hi]

theorem watchField_read_store_same (f : WatchField) (v w)
    (h : f.accepts v = true) : f.read (f.store v w) = v := by
  cases f <;> simp [WatchField.accepts] at h <;> simp [WatchField.read, WatchField.store,
      addrUpper_withUpper, addrLower_withLower]
  · exact zeroExtend_extract_small (n := 5) (by omega)
  · exact zeroExtend_extract_small (n := 5) (by omega)
  · rcases word_le_one h with rfl | rfl <;> rfl
  · rcases word_le_four h with rfl | rfl | rfl | rfl | rfl <;> rfl
  · exact zeroExtend_extract_small (n := 4) (by omega)
  · rcases word_le_two h with rfl | rfl | rfl <;> rfl

theorem watchField_read_store_other (f g : WatchField) (v w)
    (h : g ≠ f) : g.read (f.store v w) = g.read w := by
  cases f <;> cases g <;> first | exact absurd rfl h | simp only [WatchField.read, WatchField.store,
      addrLower_withUpper, addrUpper_withLower]

theorem setting_read_store_same (x : Setting) (v s)
    (h : x.accepts v = true) : x.read (x.store v s) = v := by
  cases x <;> simp [Setting.accepts] at h <;> simp [Setting.read, Setting.store, Setting.storeIn]
  · rcases word_le_one h with rfl | rfl <;> rfl
  · rcases word_le_three h with rfl | rfl | rfl | rfl <;> rfl
  · rcases word_le_three h with rfl | rfl | rfl | rfl <;> rfl
  · rcases word_le_three h with rfl | rfl | rfl | rfl <;> rfl
  · rcases word_le_three h with rfl | rfl | rfl | rfl <;> rfl
  · rcases word_le_one h with rfl | rfl <;> rfl
  · rcases word_le_one h with rfl | rfl <;> rfl
  · rcases word_le_one h with rfl | rfl <;> rfl
  · exact zeroExtend_extract_small (n := 13) (by omega)
  · rw [Four.get_put_same]; exact watchField_read_store_same _ _ _ h

theorem setting_read_store_other (x y : Setting) (v s)
    (h : y ≠ x) : y.read (x.store v s) = y.read s := by
  cases x with
  | watch n f => cases y with
    | watch m g =>
      by_cases e : m = n
      · subst e
        have : g ≠ f := fun h' => h (by rw [h'])
        simp [Setting.read, Setting.store, Four.get_put_same, watchField_read_store_other _ _ _ _ this]
      · simp [Setting.read, Setting.store, Four.get_put_other _ _ _ _ e]
    | _ => rfl
  | _ => cases y <;> first | exact absurd rfl h | rfl

theorem setting_read_congr (y : Setting) (s t : State) (h1 : t.settings = s.settings)
    (h2 : t.watch = s.watch) : y.read t = y.read s := by
  simp only [Setting.read, h1, h2]

theorem setting_store_results (x : Setting) (v s)
    (n : Fin 4) : ((x.store v s).watch.get n).hits = (s.watch.get n).hits ∧
    ((x.store v s).watch.get n).capture = (s.watch.get n).capture := by
  cases x with
  | watch m f =>
    by_cases e : n = m
    · subst e; simp [Setting.store, Four.get_put_same]
    · simp [Setting.store, Four.get_put_other _ _ _ _ e]
  | _ => exact ⟨rfl, rfl⟩

theorem exec_setOf {c : Instr} {id v} (h : c.setOf = some (id, v))
    (s) : exec c s = .next (takeSet id v s) := by
  cases c <;> simp [Instr.setOf] at h <;> (obtain ⟨rfl, rfl⟩ := h; rfl)

theorem exec_set_changes {c : Instr} {id v} (x : Setting) {s : State} (hc : c.setOf = some (id, v))
    (hx : settingOf id = some x)
    (hf : s.link.frame = some { taken := none }) (h1 : s.gate.opState ≠ .recovering)
        (h2 : s.gate.opState ≠ .formatting)
    (ha : x.accepts v = true) (hn : x.read s ≠ v) :
    exec c s = .next ((settingEffect x s (x.store v s)).answered 3 .done []) := by
  rw [exec_setOf hc]
  simp only [takeSet, takeCommand_taken hf, unlessBusy_free h1 h2, answerSet, hx, ha, if_true, plain,
      applySetting, hn, if_false]

theorem exec_set_same {c : Instr} {id v} (x : Setting) {s : State} (hc : c.setOf = some (id, v))
    (hx : settingOf id = some x)
    (hf : s.link.frame = some { taken := none }) (h1 : s.gate.opState ≠ .recovering)
        (h2 : s.gate.opState ≠ .formatting)
    (ha : x.accepts v = true) (hn : x.read s = v) :
    exec c s = .next (s.answered 3 .done []) := by
  rw [exec_setOf hc]
  simp only [takeSet, takeCommand_taken hf, unlessBusy_free h1 h2, answerSet, hx, ha, if_true, plain,
      applySetting, hn]

theorem freezeMask_read_iff (s : State) (v : Word)
    (hv : v.toNat ≤ 3) : Setting.read .freezeMask s = v ↔ (s.settings.pfailEnabled = v.getLsbD 0 ∧
    s.settings.faultEnabled = v.getLsbD 1) := by
  simp only [Setting.read]
  rcases word_le_three hv with rfl | rfl | rfl | rfl <;> cases s.settings.pfailEnabled <;> cases s.settings.faultEnabled <;> decide

theorem makeToken_spec (s : State)
    (h : s.intake.pendingCommit = false) : s.MakesToken (makeToken s) := by
  cases hr : s.region.state <;>
    simp [State.MakesToken, State.tableReady, makeToken, appendEntry, switchTable, State.readySwitch,
        hr, Intake.cleared, stoppedAuto,
      State.setIntake, State.setQueue, State.setRegion, h]

theorem tokenLimit_eq (s : State) : s.tokenLimit = (match s.engine.work with
      | .rollingBack _ => if s.engine.count = 0 then 0xFFFFFFFE#32 else 0xFFFFFFFD#32
      | _ => 0xFFFFFFFE#32) := by
  unfold State.tokenLimit
  cases s.engine.work <;> rfl

theorem stopKeep_no_seal (q : List Entry)
    (h : q.all (fun e => !e.isSeal) = true) : stopKeep q = q.filter (fun e => !e.isJournaled) := by
  induction q with
  | nil => rfl
  | cons e q ih =>
    simp only [List.all_cons, Bool.and_eq_true] at h
    have : q.any Entry.isSeal = false := by
      rw [List.any_eq_false]; intro x hx; have := List.all_eq_true.1 h.2 x hx; simpa using this
    simp only [stopKeep, this, ih h.2, Bool.false_or, List.filter_cons]

theorem stopKeep_before_seal (q : List Entry) (x : Entry) (hx : x.isSeal = true) (back : List Entry)
    (h : back.all (fun e => !e.isSeal) = true) :
    stopKeep (q ++ [x] ++ back) = q ++ [x] ++ back.filter (fun e => !e.isJournaled) := by
  have hj : x.isJournaled = false := by
    cases x <;> simp [Entry.isSeal] at hx
    rfl
  induction q with
  | nil => simp only [List.nil_append, List.cons_append, stopKeep, hj, stopKeep_no_seal _ h]; simp
  | cons e q ih =>
    have : ((q ++ [x] ++ back).any Entry.isSeal) = true := by simp [hx]
    simp only [List.cons_append] at ih ⊢
    simp only [stopKeep, ih]
    simp only [List.append_assoc] at this ⊢
    rw [this]; rfl

theorem stopKeep_append (front back : List Entry)
    (hf : front = [] ∨ ∃ q g sw, front = q ++ [.sealToken g sw])
    (h : back.all (fun e => !e.isSeal) = true) :
    stopKeep (front ++ back) = front ++ back.filter (fun e => !e.isJournaled) := by
  rcases hf with rfl | ⟨q, g, sw, rfl⟩
  · exact stopKeep_no_seal back h
  · exact stopKeep_before_seal q _ rfl back h

theorem stopKeep_seals (q : List Entry) : sealCount (stopKeep q) = sealCount q := by
  induction q with
  | nil => rfl
  | cons e q ih =>
    simp only [stopKeep]
    split
    · simp only [sealCount, List.filter_cons] at ih ⊢; split <;> simp [ih]
    · next h =>
      have : e.isSeal = false := by cases e <;> simp_all [Entry.isSeal, Entry.isJournaled]
      simp only [sealCount, List.filter_cons, this] at ih ⊢; simpa using ih

theorem stopKept_seals (s : State) : sealCount s.stopKept = sealCount s.queue.entries := by
  unfold State.stopKept
  split
  · next h => rw [h]; rename_i a b c d; simp only [sealCount,
      List.filter_cons]; have := stopKeep_seals c; simp only [sealCount] at this; split <;> simp [this]
  · exact stopKeep_seals _

theorem satAdd_zero (w : Word) : satAdd w 0 = w := by
  simp only [satAdd]; apply BitVec.eq_of_toNat_eq; simp; have := w.isLt; rw [Nat.min_eq_right (by omega)]; omega

theorem stopOrder_spec (s : State) : s.Stops (stopOrder s) := by
  refine ⟨?_, ?_, ?_, ?_⟩
  · intro begun front back hq hb hf hn
    have hk : s.stopKept = begun ++ front ++ back.filter (fun e => !e.isJournaled) := by
      unfold State.stopKept
      cases hh : s.headBegun with
      | true =>
        cases he : s.queue.entries with
        | nil =>
          rw [he] at hq; simp at hq; obtain ⟨rfl, rfl, rfl⟩ := hq; rfl
        | cons e q =>
          rw [hh, he] at hb; simp at hb
          obtain ⟨x, rfl⟩ := List.length_eq_one_iff.1 hb
          rw [he] at hq; simp at hq; obtain ⟨rfl, rfl⟩ := hq
          simp [stopKeep_append front back hf hn]
      | false =>
        rw [hh] at hb; simp at hb; subst hb
        simp only [List.nil_append] at hq ⊢
        rw [hq, stopKeep_append front back hf hn]
    have e : (stopOrder s).queue = s.queue.discardTo s.stopKept := by simp [stopOrder]
    rw [e]
    refine ⟨hk, ?_⟩
    simp only [Posted.discardTo, hk, hq]
    congr 1
    have : (back.filter (fun e => !e.isJournaled)).filter Entry.isJournaled = [] := by
      simp [List.filter_filter]
    simp only [List.filter_append, List.length_append, this]
    simp
  · simp [stopOrder, Posted.discardTo, stopKept_seals, satAdd_zero]
  · simp [stopOrder, Intake.cleared, stoppedAuto]
  · have : s.stopAbandons = true ↔ (s.intake.dirty = true ∨ (s.engine.closed + 1 = s.intake.group ∧
      s.engine.count ≠ 0)) := by
      simp only [State.stopAbandons, Bool.or_eq_true, Bool.and_eq_true, decide_eq_true_eq]; rfl
    by_cases h : (s.intake.dirty = true ∨ (s.engine.closed + 1 = s.intake.group ∧ s.engine.count ≠ 0))
    · rw [if_pos h]; simp [stopOrder, this.2 h]
    · rw [if_neg h]
      have : s.stopAbandons = false := by rw [Bool.eq_false_iff]; exact fun x => h (this.1 x)
      simp [stopOrder, this]

theorem stops_congr {s x t u : State} (h1 : x.queue = s.queue) (h2 : x.intake = s.intake)
    (h3 : x.engine = s.engine)
    (h4 : u.queue = t.queue) (h5 : u.intake = t.intake) (h6 : u.engine = t.engine)
        (h : x.Stops t) : s.Stops u := by
  have hb : x.headBegun = s.headBegun := by simp only [State.headBegun, h3]
  simp only [State.Stops, h1, h2, h3, hb] at h
  simp only [State.Stops, h4, h5, h6]
  exact h

theorem refuseWaiting_spec (s : State) : (∀ c, s.up.cycle = some c → c.phase = .waitingWrite →
    s.gateCovers c.cls = true →
      refuseWaiting s = refuse c.addr c.direction .gate c.tag s) ∧
    ((∀ c, s.up.cycle = some c → c.phase ≠ .waitingWrite ∨ s.gateCovers c.cls = false) →
        refuseWaiting s = s) := by
  constructor
  · intro c h1 h2 h3; simp [refuseWaiting, h1, h2, h3]
  · intro h
    unfold refuseWaiting
    cases hc : s.up.cycle with
    | none => rfl
    | some c => rcases h c hc with h | h <;> simp [h]

theorem refuseWaiting_gate (s : State) : (refuseWaiting s).gate = s.gate := by simp

theorem refuseWaiting_flags (s : State) (e)
    (h : s.flagged e = true) : (refuseWaiting s).flagged e = true := by
  unfold refuseWaiting
  cases hc : s.up.cycle with
  | none => exact h
  | some c =>
    simp only; split
    · rw [(refuse_spec _ _ _ _ s).2.2 e, h]; rfl
    · exact h

theorem addCause_commitStep (c : Cause) (s : State)
    (hc : c ≠ .anchor) (hx : c ≠ .exhausted) : (addCause c s).commitStep = s.commitStep := by
  have : (addCause c s).commitBarred = s.commitBarred := by
    cases c <;> first | rfl | exact absurd rfl hc | exact absurd rfl hx
  simp only [State.commitStep, this]
  rfl

theorem addCause_takeCommit (c : Cause) (s : State)
    (hc : c ≠ .anchor) (hx : c ≠ .exhausted) : (takeCommit (addCause c s)).queue = (takeCommit s).queue ∧
    (takeCommit (addCause c s)).intake = (takeCommit s).intake ∧
        (takeCommit (addCause c s)).region = (takeCommit s).region := by
  unfold takeCommit; rw [addCause_commitStep c s hc hx]
  cases s.commitStep with
  | token => cases hr : s.region.state <;> simp [makeToken, switchTable, appendEntry,
      State.readySwitch, hr]
  | _ => simp

theorem stopOrder_engine (s : State) : (stopOrder s).engine.work = s.engine.work ∧
    (stopOrder s).engine.closed = s.engine.closed ∧
  (stopOrder s).engine.count = s.engine.count ∧ (stopOrder s).engine.chain = s.engine.chain ∧
      (stopOrder s).engine.durable = s.engine.durable := by
  simp [stopOrder]

theorem placeOrder_gate (o : Origin)
    (s : State) : (placeOrder o s).gate = { s.gate with order := if s.gate.order ≠ none ∨ s.rollingBack = true then s.gate.order else some o } := by
  unfold placeOrder
  by_cases h : s.gate.order ≠ none ∨ s.rollingBack = true
  · have : (s.gate.order.isSome || s.rollingBack) = true := by simpa [Option.isSome_iff_ne_none] using h
    rw [if_pos this, if_pos h]
  · have : (s.gate.order.isSome || s.rollingBack) = false := by
      simpa using h
    rw [this, if_neg h]; rfl

/-- What an action does once the gate is closed, whatever came before (R108, R111, R112). -/
theorem setLevel_actStopped_spec (cause : Cause) (a : Action) (x s : State) (hq : a ≠ .sealGroup →
    x.queue = s.queue ∧ x.intake = s.intake ∧ x.region = s.region) (h3 : x.engine = s.engine)
    (ho : x.gate.order = s.gate.order) :
    let t := setLevel a (actStopped cause a x)
    t.gate = { x.gate with level := a, order := t.gate.order } ∧ t.up = x.up ∧ t.events = x.events ∧
    t.region = x.region ∧
    t.engine.work = s.engine.work ∧ t.engine.closed = s.engine.closed ∧
      t.engine.count = s.engine.count ∧ t.engine.chain = s.engine.chain ∧
      t.engine.durable = s.engine.durable ∧
    (a = .none ∨ a = .sealGroup → t.queue = x.queue ∧ t.intake = x.intake ∧ t.engine = s.engine ∧
        t.gate.order = s.gate.order) ∧
    (a = .stop ∨ a = .rollback → s.Stops t) ∧
    (a = .stop → t.gate.order = s.gate.order) ∧
    (a = .rollback → t.gate.order = if s.gate.order ≠ none ∨ s.rollingBack = true then s.gate.order else some cause.origin) := by
  intro t
  have hst := stopOrder_engine x
  have hsp := stopOrder_spec x
  cases a with
  | none => simp [t, actStopped, setLevel, h3, ho]
  | sealGroup => simp [t, actStopped, setLevel, h3, ho]
  | stop =>
    obtain ⟨q1, q2, q3⟩ := hq (by simp)
    have : s.Stops t := stops_congr q1 q2 h3 rfl rfl rfl hsp
    refine ⟨?_, ?_, ?_, ?_, ?_, ?_, ?_, ?_, ?_, ?_, fun _ => this, ?_, ?_⟩ <;> simp [t, actStopped,
        setLevel, hst, h3, ho]
  | rollback =>
    obtain ⟨q1, q2, q3⟩ := hq (by simp)
    have : s.Stops t := stops_congr q1 q2 h3 (by simp [t, actStopped, setLevel])
        (by simp [t, actStopped, setLevel]) (by simp [t, actStopped, setLevel]) hsp
    have hr : (stopOrder x).rollingBack = s.rollingBack := by simp only [State.rollingBack, hst.1, h3]
    refine ⟨?_, ?_, ?_, ?_, ?_, ?_, ?_, ?_, ?_, ?_, fun _ => this, ?_, ?_⟩ <;> simp [t, actStopped,
        setLevel, placeOrder_gate, hr, hst, h3, ho]

end Sys2Proof.Machine
end

