-- ==== Sys2Proof/Laws/Memory.lean ====
section
/-! SUPPORT. What reading and writing bytes and words of memory give, and that every write keeps the canonical form. -/

namespace Sys2Proof.Machine

/-- Above a bound that is lower, the canonical form holds too. -/
theorem Memory.wfAbove_mono {n k : Nat} (h : k ≤ n) :
    ∀ m : Memory, Memory.wfAbove n m = true → Memory.wfAbove k m = true
  | [], _ => rfl
  | (_, _) :: _, hm => by
    simp only [Memory.wfAbove, Bool.and_eq_true, decide_eq_true_eq] at hm ⊢
    exact ⟨⟨by omega, hm.1.2⟩, hm.2⟩

/-- Below the bound of a canonical memory every cell reads as unlisted. -/
theorem Memory.byte_below :
    ∀ (m : Memory) (n i : Nat), Memory.wfAbove n m = true → i < n → m.byte i = Config.unlistedByte
  | [], _, _, _, _ => rfl
  | (k, b) :: m, n, i, hm, hi => by
    simp only [Memory.wfAbove, Bool.and_eq_true, decide_eq_true_eq] at hm
    have hk : k ≠ i := by omega
    simp only [Memory.byte, hk, if_false]
    exact Memory.byte_below m (k + 1) i hm.2 (by omega)

/-- A cell that has been written holds what was written. -/
theorem Memory.byte_setByte_self :
    ∀ (m : Memory) (n i : Nat) (b : Byte), Memory.wfAbove n m = true → n ≤ i →
      (m.setByte i b).byte i = b
  | [], _, i, b, _, _ => by
    simp only [Memory.setByte]; split <;> simp_all [Memory.byte]
  | (k, c) :: m, n, i, b, hm, hn => by
    simp only [Memory.wfAbove, Bool.and_eq_true, decide_eq_true_eq] at hm
    simp only [Memory.setByte]
    split
    · rename_i hik
      split
      · rename_i hb
        have : k ≠ i := by omega
        simp only [Memory.byte, this, if_false, hb]
        exact Memory.byte_below m (k + 1) i hm.2 (by omega)
      · simp [Memory.byte]
    · split
      · rename_i hik hki
        subst hki
        split
        · rename_i hb
          rw [hb]; exact Memory.byte_below m (i + 1) i hm.2 (by omega)
        · simp [Memory.byte]
      · rename_i h1 h2
        have : k ≠ i := fun h => h2 h.symm
        simp only [Memory.byte, this, if_false]
        exact Memory.byte_setByte_self m (k + 1) i b hm.2 (by omega)

/-- A write leaves every other cell as it was. -/
theorem Memory.byte_setByte_other :
    ∀ (m : Memory) (i j : Nat) (b : Byte), j ≠ i → (m.setByte i b).byte j = m.byte j
  | [], i, j, b, h => by
    simp only [Memory.setByte]; split <;> simp [Memory.byte, Ne.symm h]
  | (k, c) :: m, i, j, b, h => by
    simp only [Memory.setByte]
    split
    · split <;> simp [Memory.byte, Ne.symm h]
    · split
      · rename_i _ hik
        subst hik
        split <;> simp [Memory.byte, Ne.symm h]
      · simp only [Memory.byte]
        split
        · rfl
        · exact Memory.byte_setByte_other m i j b h

/-- A write keeps the canonical form above a bound that the cell respects. -/
theorem Memory.wfAbove_setByte :
    ∀ (m : Memory) (n i : Nat) (b : Byte), Memory.wfAbove n m = true → n ≤ i →
      Memory.wfAbove n (m.setByte i b) = true
  | [], n, i, b, _, hn => by
    simp only [Memory.setByte]; split <;> simp_all [Memory.wfAbove]
  | (k, c) :: m, n, i, b, hm, hn => by
    simp only [Memory.wfAbove, Bool.and_eq_true, decide_eq_true_eq] at hm
    simp only [Memory.setByte]
    split
    · split
      · simp [Memory.wfAbove, hm]
      · rename_i hik hb
        simp only [Memory.wfAbove, Bool.and_eq_true, decide_eq_true_eq]
        exact ⟨⟨hn, hb⟩, ⟨by omega, hm.1.2⟩, hm.2⟩
    · split
      · rename_i _ hik
        subst hik
        split
        · exact Memory.wfAbove_mono (by omega) m hm.2
        · rename_i hb
          simp only [Memory.wfAbove, Bool.and_eq_true, decide_eq_true_eq]
          exact ⟨⟨hn, hb⟩, hm.2⟩
      · simp only [Memory.wfAbove, Bool.and_eq_true, decide_eq_true_eq]
        exact ⟨hm.1, Memory.wfAbove_setByte m (k + 1) i b hm.2 (by omega)⟩

/-- Writing a byte keeps the canonical form. -/
theorem Memory.wf_setByte (m : Memory) (i : Nat) (b : Byte) (h : m.wf = true) :
    (m.setByte i b).wf = true :=
  Memory.wfAbove_setByte m 0 i b h (Nat.zero_le i)

/-- Writing a word keeps the canonical form. -/
theorem Memory.wf_writeWord (m : Memory) (a : Nat) (w : Word) (l : Lanes) (h : m.wf = true) :
    (m.writeWord a w l).wf = true := by
  cases l <;> simp only [Memory.writeWord]
  · exact Memory.wf_setByte _ _ _ h
  · exact Memory.wf_setByte _ _ _ h
  · exact Memory.wf_setByte _ _ _ (Memory.wf_setByte _ _ _ h)

/-- A word write leaves every byte of the other words as it was. -/
theorem Memory.byte_writeWord_other (m : Memory) (a i : Nat) (w : Word) (l : Lanes) (h : i / 2 ≠ a) :
    (m.writeWord a w l).byte i = m.byte i := by
  have h1 : i ≠ 2 * a := by omega
  have h2 : i ≠ 2 * a + 1 := by omega
  cases l <;> simp [Memory.writeWord, Memory.byte_setByte_other, h1, h2]

/-- The upper lane of a written word. -/
theorem Memory.byte_writeWord_upper (m : Memory) (a : Nat) (w : Word) (l : Lanes) (h : m.wf = true) :
    (m.writeWord a w l).byte (2 * a) =
      (match l with | .lower => m.byte (2 * a) | .upper | .both => hiByte w) := by
  have h1 : 2 * a ≠ 2 * a + 1 := by omega
  cases l <;> simp only [Memory.writeWord]
  · exact Memory.byte_setByte_self m 0 _ _ h (Nat.zero_le _)
  · exact Memory.byte_setByte_other m _ _ _ h1
  · rw [Memory.byte_setByte_other _ _ _ _ h1]
    exact Memory.byte_setByte_self m 0 _ _ h (Nat.zero_le _)

/-- The lower lane of a written word. -/
theorem Memory.byte_writeWord_lower (m : Memory) (a : Nat) (w : Word) (l : Lanes) (h : m.wf = true) :
    (m.writeWord a w l).byte (2 * a + 1) =
      (match l with | .upper => m.byte (2 * a + 1) | .lower | .both => loByte w) := by
  have h1 : 2 * a + 1 ≠ 2 * a := by omega
  cases l <;> simp only [Memory.writeWord]
  · exact Memory.byte_setByte_other m _ _ _ h1
  · exact Memory.byte_setByte_self m 0 _ _ h (Nat.zero_le _)
  · exact Memory.byte_setByte_self _ 0 _ _ (Memory.wf_setByte _ _ _ h) (Nat.zero_le _)

/-- Two lanes make the word they are the lanes of. -/
theorem joinBytes_lanes (w : Word) : joinBytes (hiByte w) (loByte w) = w := by
  unfold joinBytes hiByte loByte
  apply BitVec.eq_of_getLsbD_eq
  intro i hi
  simp only [BitVec.getLsbD_append, BitVec.getLsbD_extractLsb']
  by_cases h : i < 8
  · simp [h]
  · have h8 : i - 8 < 8 := by omega
    have h9 : 8 + (i - 8) = i := by omega
    simp [h, h8, h9]

/-- A word written on both lanes reads back. -/
theorem Memory.word_writeWord_self (m : Memory) (a : Nat) (w : Word) (h : m.wf = true) :
    (m.writeWord a w .both).word a = w := by
  unfold Memory.word
  rw [Memory.byte_writeWord_upper m a w .both h, Memory.byte_writeWord_lower m a w .both h]
  exact joinBytes_lanes w

/-- A word write leaves every other word as it was. -/
theorem Memory.word_writeWord_other (m : Memory) (a b : Nat) (w : Word) (l : Lanes) (h : b ≠ a) :
    (m.writeWord a w l).word b = m.word b := by
  unfold Memory.word
  rw [Memory.byte_writeWord_other m a (2 * b) w l (by omega),
    Memory.byte_writeWord_other m a (2 * b + 1) w l (by omega)]

/-- The line of an address, as a number (R46). -/
theorem lineOf_toNat (a : Addr) : (lineOf a).toNat = 8 * (a.toNat / 8) := by
  have h : lineOf a = (a >>> 3) <<< 3 := by
    apply BitVec.eq_of_getLsbD_eq
    intro i hi
    simp only [lineOf, BitVec.getLsbD_and, BitVec.getLsbD_shiftLeft, BitVec.getLsbD_ushiftRight]
    interval_cases i <;> simp
  have := a.isLt
  rw [h]
  simp only [BitVec.toNat_shiftLeft, BitVec.toNat_ushiftRight, Nat.shiftLeft_eq,
    Nat.shiftRight_eq_div_pow]
  omega

end Sys2Proof.Machine
end

