-- ==== Sys2Proof/Laws/Cycles.lean ====
section
/-! SUPPORT. What the shared operations of the upstream cycles do: refusals after a comparison, acceptance, forwarding. -/

namespace Sys2Proof.Machine

theorem lanesOf_some {u l : Bool} (h : (u || l) = true) : ∃ x, lanesOf u l = some x := by
  cases u <;> cases l <;> simp_all [lanesOf]

theorem openCycle_observe (s : State)
    (a d l w c) : (openCycle s).observe a d l w c = s.observe a d l w c := rfl

/-- A claim ends the cycle of the waiting write, by a refusal or by acceptance (R33). -/
theorem claimEntry_cycle (c : Cycle) (s : State) : (claimEntry c s).up.cycle = none := by
  unfold claimEntry
  dsimp only
  repeat' split
  all_goals first | exact (refuse_spec _ _ _ _ _).1.1 | rfl

/-- Nothing is left to claim behind a claim. -/
theorem claimFirst_settled (s : State) : claimFirst (claimFirst s) = claimFirst s := by
  by_cases h : ∃ c, s.up.cycle = some c ∧ c.phase = .waitingWrite ∧ s.writeMayClaim = true
  · obtain ⟨c, hc, hp, hm⟩ := h
    have e : claimFirst s = claimEntry c s := by simp [claimFirst, hc, hp, hm]
    rw [e]
    simp [claimFirst, claimEntry_cycle]
  · have e : claimFirst s = s := by
      unfold claimFirst
      split
      · rename_i c hc
        exact if_neg fun k => h ⟨c, hc, k⟩
      · rfl
    rw [e, e]

/-- With no waiting write, no free entry, or a pending commit to claim it first, nothing is claimed (R43). -/
theorem claimFirst_none (s : State) (h : (∀ c, s.up.cycle = some c → c.phase ≠ .waitingWrite) ∨
    16 ≤ s.queue.entries.length ∨ s.intake.pendingCommit = true) : claimFirst s = s := by
  unfold claimFirst
  split
  · rename_i c hc
    refine if_neg fun k => ?_
    have hs : s.writeMayClaim = false := by
      rcases h with h | h | h
      · exact absurd k.1 (h c hc)
      · simp [State.writeMayClaim, State.hasSpace, Config.queueSize, Nat.not_lt.2 h]
      · simp [State.writeMayClaim, h]
    simp [hs] at k
  · rfl

/-- A refusal after a comparison (R35, R143). -/
theorem refuse_compare_spec (s : State) (a : Addr) (d : Direction) (why tag held seen) :
    let r := refuse a d why tag (compareAll held seen (openCycle s))
    s.Refuses r a d why tag ∧ s.Compares r held seen ∧
        s.FlagsGain r (fun e => decide (e = why.event) || hitEvent held seen e) := by
  intro r
  have h1 := refuse_spec a d why tag (compareAll held seen (openCycle s))
  have h2 := compareAll_spec held seen (openCycle s)
  refine ⟨?_, ?_, ?_⟩
  · have := h1.1
    simpa [r, State.Refuses, State.SameWork, openCycle] using this
  · intro n; rw [h1.2.1]; exact h2.1 n
  · intro e; rw [h1.2.2 e, h2.2 e]; simp [openCycle]; ac_rfl

theorem refusesState_false (s : State) (h1 : s.gate.opState ≠ .recovering)
    (h2 : s.gate.opState ≠ .formatting) : s.refusesState = false := by
    unfold State.refusesState; cases h : s.gate.opState <;> simp_all

theorem takeWrite_eq (s : State) (a w lanes) (cls tag seen o) (h1 : s.gate.opState ≠ .recovering)
    (h2 : s.gate.opState ≠ .formatting)
    (hl : s.lookup (s.cycleAddr a) = (cls, tag))
        (hs : seen = s.observe (s.cycleAddr a) .write lanes w cls)
        (ho : o = watchOutcome s.watchSettings seen) :
    takeWrite a w lanes s = (
    let s1 := compareAll s.watchSettings seen (openCycle s)
    if cls.refusesWrites then watchTrigger o (refuse (s.cycleAddr a) .write .cls tag s1)
    else if watchRefuses o then watchTrigger o (refuse (s.cycleAddr a) .write .watch tag s1)
    else if s1.gateRefuses cls then refuse (s.cycleAddr a) .write .gate tag s1
    else acceptOrWait (s.cycleAddr a) w lanes cls tag s1) := by
  have e : (openCycle s).cycleAddr a = s.cycleAddr a := rfl
  have hst : (openCycle s).refusesState = false := refusesState_false s h1 h2
  have hl' : (openCycle s).lookup (s.cycleAddr a) = (cls, tag) := hl
  have e2 : (openCycle s).watchSettings = s.watchSettings := rfl
  unfold takeWrite
  simp only [e, hst, hl', e2, openCycle_observe, ← hs, ← ho]
  rfl

theorem filterLookup_spec (s t : State) (a : Addr) (w : Word) (lanes : Lanes)
   (ht : t.queue.entries = (acceptJournaled a w lanes s).queue.entries)
       (hi : t.intake = (acceptJournaled a w lanes s).intake) : s.AcceptsJournaled t a w lanes := by
  unfold State.AcceptsJournaled
  rw [ht, hi]
  refine ⟨(filterLookup s.intake.filter s.intake.removed (lineOf a)).2.2.1,
      (filterLookup s.intake.filter s.intake.removed (lineOf a)).2.2.2, ?_⟩
  refine ⟨rfl, rfl, rfl, rfl, rfl, rfl, ?_, ?_, ?_⟩
  · simp only [acceptJournaled, appendEntry, State.startedAuto]
    by_cases h : s.intake.dirty <;> by_cases h2 : s.intake.interval = 0 <;> simp [h, h2]
  · intro h; simp [acceptJournaled, appendEntry, filterLookup, h]
  · intro h
    simp only [acceptJournaled, appendEntry, filterLookup, h, if_false]
    refine ⟨?_, ?_, ?_, ?_⟩
    · by_cases h3 : s.intake.filter.length < Config.filterSize
      · simp [h3]
      · simp [h3]; split <;> rfl
    · by_cases h3 : s.intake.filter.length < Config.filterSize
      · simp [h3]
      · simp [h3]; split <;> rfl
    · intro h3; simp [Config.filterSize, h3]
    · intro o r hor h3
      have : ¬ (s.intake.filter.length < Config.filterSize) := by simp only [Config.filterSize]; omega
      simp only [State.setQueue_intake, State.setIntake_intake]
      rw [if_neg this, hor]; exact ⟨rfl, rfl⟩

theorem acceptWrite_spec (s : State) (a w lanes cls) (h : cls = .journaled ∨ cls = .direct) :
    s.Accepts (acceptWrite a w lanes cls s) a w lanes cls := by
  unfold State.Accepts
  rcases h with h | h <;> subst h
  · refine ⟨rfl, rfl, rfl, rfl, rfl, ?_, ?_, ?_⟩
    · intro h; cases h
    · intro _; exact filterLookup_spec s _ a w lanes rfl rfl
    · rfl
  · refine ⟨rfl, rfl, rfl, rfl, rfl, ?_, ?_, ?_⟩
    · intro _; exact ⟨rfl, rfl⟩
    · intro h; cases h
    · rfl

theorem accepts_trans (s s1 t : State) (a w lanes cls) (h : s1.Accepts t a w lanes cls)
   (e : s1 = { s with up := s1.up, watch := s1.watch, events := { s.events with flags := s1.events.flags, attn := s1.events.attn, pulse := s1.events.pulse } }) :
   s.Accepts t a w lanes cls := by
  unfold State.Accepts State.AcceptsJournaled at *
  rw [e] at h
  obtain ⟨x1,x2,x3,x4,x5,x6,x7,x8⟩ := h
  exact ⟨x1,x2,x3,x4,x5,x6,x7, x8⟩

theorem compareAll_openCycle_frame (s : State)
    (held seen) : (compareAll held seen (openCycle s)) = { s with up := (compareAll held seen (openCycle s)).up, watch := (compareAll held seen (openCycle s)).watch, events := { s.events with flags := (compareAll held seen (openCycle s)).events.flags, attn := (compareAll held seen (openCycle s)).events.attn, pulse := (compareAll held seen (openCycle s)).events.pulse } } := by
  have k := compareAll_keeps held seen (openCycle s)
  have k2 := compareAll_events held seen (openCycle s)
  obtain ⟨k3, k4, k5⟩ := k2
  have hev : ∀ x : Events, x.counters = s.events.counters → x.refusal = s.events.refusal →
      x.restore = s.events.restore →
      x = { s.events with flags := x.flags, attn := x.attn, pulse := x.pulse } := by
    intro x h1 h2 h3; cases x; simp_all
  apply State.eq_of_fields
  refine ⟨by simp [openCycle], rfl, by simp [openCycle], by simp [openCycle], by simp [openCycle],
      by simp [openCycle], by simp [openCycle], by simp [openCycle], rfl, by simp [openCycle],
      hev _ k3 k4 k5, by simp [openCycle], by simp [openCycle], by simp [openCycle],
      by simp [openCycle], by simp [openCycle]⟩

theorem acceptWrite_flagged (a w lanes cls) (s : State)
    (e : Event) : (acceptWrite a w lanes cls s).flagged e = s.flagged e := by
  cases cls <;> rfl

theorem lanes_bits (l : Lanes) (i : Nat)
    (h : i < 16) : l.bits.getLsbD i = (if i < 8 then l.hasLower else l.hasUpper) := by
  cases l <;> simp only [Lanes.bits, Lanes.hasLower, Lanes.hasUpper] <;> interval_cases i <;> rfl

theorem forwardByte_spec (lane : Lanes → Bool) (byte : Word →
    Byte) (a : Addr) (q : List Entry) (b : Byte) :
    (∀ older e newer, q = older ++ .write e :: newer → e.addr = a → lane e.lanes = true →
        (∀ e', .write e' ∈ newer → e'.addr = a → lane e'.lanes = false) →
            forwardByte lane byte a q b = byte e.data) ∧
    ((∀ e, .write e ∈ q → e.addr = a → lane e.lanes = false) → forwardByte lane byte a q b = b) := by
  induction q generalizing b with
  | nil => refine ⟨?_, fun _ => rfl⟩; intro older e newer h; simp at h
  | cons x q ih =>
    constructor
    · intro older e newer h ha hl hn
      cases older with
      | nil =>
        simp at h; obtain ⟨rfl, rfl⟩ := h
        simp only [forwardByte, ha, hl]; simpa using (ih _).2 hn
      | cons y older =>
        simp at h; obtain ⟨rfl, h⟩ := h
        have k := fun b => (ih b).1 older e newer h ha hl hn
        cases x <;> exact k _
    · intro h
      have k := fun b => (ih b).2 (fun e he => h e (List.mem_cons_of_mem _ he))
      cases x with
      | write e => 
        have : ¬ (e.addr = a ∧ lane e.lanes = true) := by
          rintro ⟨h1, h2⟩; simp [h e List.mem_cons_self h1] at h2
        simp only [forwardByte, this, if_false]; exact k _
      | sealToken _ _ => exact k _
      | tableToken _ => exact k _

theorem hiByte_joinBytes (h l : Byte) : hiByte (joinBytes h l) = h := by
  apply BitVec.eq_of_getLsbD_eq; intro i hi; simp only [hiByte, joinBytes,
      BitVec.getLsbD_extractLsb', BitVec.getLsbD_append]; simp [hi]

theorem loByte_joinBytes (h l : Byte) : loByte (joinBytes h l) = l := by
  apply BitVec.eq_of_getLsbD_eq; intro i hi; simp only [loByte, joinBytes,
      BitVec.getLsbD_extractLsb', BitVec.getLsbD_append]; simp [hi]

theorem lanes_has_iff (l : Lanes) : (l.hasUpper = true ↔ l ≠ .lower) ∧
    (l.hasUpper = false ↔ l = .lower) ∧ (l.hasLower = true ↔ l ≠ .upper) ∧
    (l.hasLower = false ↔ l = .upper) := by
  cases l <;> decide

end Sys2Proof.Machine
end

