-- ==== Sys2Proof/Laws/Engine.lean ====
section
/-! SUPPORT. What the shared operations of the Store Engine do: completed accesses, ends of rollback and recovery, durable structures. -/

namespace Sys2Proof.Machine

theorem accessComplete_engine (s : State) (a : Access) (ans) (h : s.port.access = some (.engine, a)) :
    exec (.accessComplete ans) s = .next (advanceEngine (s.readAnswer a ans)
        ((s.setMem (s.memAfter a ans)).setPort { s.port with access := none })) := by
  simp [exec, execAccessComplete, h, completeAccess]

theorem memAfter_read (s : State) (a : Access)
    (h : a.write = none) : s.memAfter a none = s.mem := by simp [State.memAfter, h]

theorem accessComplete_engine_read (s : State) (a : Access) (h : s.port.access = some (.engine, a))
    (hw : a.write = none) :
    exec (.accessComplete none) s = .next (advanceEngine (s.mem.word (a.addr % s.top))
        (s.setPort { s.port with access := none })) := by
  rw [accessComplete_engine s a none h, memAfter_read s a hw]; rfl

theorem wordAt_getD (ws n) : wordAt ws n = ws.getD n 0 := rfl

theorem stopKeep_clean (q : List Entry)
    (h : q.all (fun e => !e.isJournaled && !e.isSeal) = true) : stopKeep q = q := by
  induction q with
  | nil => rfl
  | cons e q ih =>
    simp only [List.all_cons, Bool.and_eq_true] at h
    simp only [stopKeep, ih h.2]; simp [h.1.1]

theorem satAdd_satAdd_zero (w : Word) (n : Nat) : satAdd (satAdd w n) 0 = satAdd w n := by
  simp only [satAdd]
  apply BitVec.eq_of_toNat_eq
  simp
  have : min 65535 (BitVec.toNat w + n) < 65536 := by omega
  rw [Nat.mod_eq_of_lt this]
  omega

theorem endRollback_fields (r o st i) (s : State) : (endRollback r o st i s).gate = s.gate ∧
    (endRollback r o st i s).intake = s.intake ∧ (endRollback r o st i s).region = s.region ∧
    (endRollback r o st i s).queue.entries = s.queue.entries ∧ (endRollback r o st i s).mem = s.mem ∧
    (endRollback r o st i s).port = s.port ∧
   (endRollback r o st i s).engine = { s.engine with work := .idle, abandoned := none } ∧
       (endRollback r o st i s).events.restore.outcome = o ∧
       (endRollback r o st i s).events.restore.origin = r.origin := by
  simp [endRollback, setWork, fillReport]

theorem refuseWaiting_fields (s : State) : (refuseWaiting s).gate = s.gate ∧
    (refuseWaiting s).intake = s.intake ∧ (refuseWaiting s).region = s.region ∧
    (refuseWaiting s).queue = s.queue ∧ (refuseWaiting s).mem = s.mem ∧
    (refuseWaiting s).port = s.port ∧ (refuseWaiting s).engine = s.engine := by
  unfold refuseWaiting; split
  · simp
  · split
    · rename_i c _ _
      have h := (refuse_spec c.addr c.direction .gate c.tag s).1.2.2.2.2.2.2.2.2
      exact ⟨h.2.2.2.2.2.2.1, h.2.2.1, h.2.2.2.2.2.1, h.2.2.2.1, h.2.2.2.2.2.2.2.2.2.2.1, h.2.1,
          h.2.2.2.2.1⟩
    · simp

/-- The trigger of a journal fault, whose discard order has run (R80, R82). -/
theorem trigger_fault_spec (cause : Cause) (s : State) (r : Rollback)
    (ho : s.gate.opState = .running ∨ s.gate.opState = .frozen)
   (hw : s.engine.work = .rollingBack r) (hord : s.gate.order = none)
       (hq : s.queue.entries.all (fun e => !e.isJournaled && !e.isSeal) = true)
   (hd : s.intake.dirty = false) (hf : s.intake.filter = []) (hrm : s.intake.removed = [])
       (hpc : s.intake.pendingCommit = false) (hI : s.intake.group = s.openGroup)
       (hab : s.engine.abandoned = some s.openGroup) :
   let t := trigger cause .rollback s
   t.gate.opState = .frozen ∧ (t.gate.frz = true ∨ s.gate.opState = .frozen ∧
       t.gate.frz = s.gate.frz) ∧ t.gate.causes = s.gate.causes.add cause ∧
       t.gate.level = (if s.gate.opState = .frozen ∧
       s.gate.level = .rollback then s.gate.level else .rollback) ∧ t.gate.order = none ∧
   t.queue.entries = s.queue.entries ∧ t.intake.group = s.intake.group ∧ t.intake.dirty = false ∧
       t.intake.filter = [] ∧ t.intake.removed = [] ∧ t.intake.pendingCommit = false ∧
   t.engine = s.engine ∧ t.region = s.region ∧ t.mem = s.mem ∧ t.port = s.port := by
  intro t
  have hrb : s.rollingBack = true := by simp [State.rollingBack, hw]
  -- stopOrder on a state like s
  have hstop : ∀ x : State, x.engine = s.engine → x.queue = s.queue → x.intake = s.intake →
      x.gate.order = none →
      (placeOrder cause.origin (stopOrder x)).gate = x.gate ∧
          (placeOrder cause.origin (stopOrder x)).queue.entries = s.queue.entries ∧
      (placeOrder cause.origin (stopOrder x)).intake = { s.intake.cleared with pendingCommit := false } ∧ (placeOrder cause.origin (stopOrder x)).engine = s.engine ∧
      (placeOrder cause.origin (stopOrder x)).region = x.region ∧
          (placeOrder cause.origin (stopOrder x)).mem = x.mem ∧
          (placeOrder cause.origin (stopOrder x)).port = x.port := by
    intro x h1 h2 h3 h4
    have hk : x.stopKept = s.queue.entries := by
      simp only [State.stopKept, State.headBegun, h1, hw, h2]
      exact stopKeep_clean _ hq
    have he : (stopOrder x).engine = s.engine := by
      simp only [stopOrder, State.stopAbandons, h3, hd, State.openGroup, h1]
      simp [h1]
      have : s.engine = { s.engine with abandoned := some s.openGroup } := by rw [← hab]
      split
      · rw [this]; simp [hI]
      · simp
    have hrb2 : (stopOrder x).rollingBack = true := by simp [State.rollingBack, he, hw]
    unfold placeOrder
    simp only [hrb2, Bool.or_true, if_true]
    refine ⟨by simp [stopOrder], by simp [stopOrder, Posted.discardTo, hk], by simp [stopOrder, h3],
        he, by simp [stopOrder], by simp [stopOrder], by simp [stopOrder]⟩
  rcases ho with ho | ho
  · have ht : t = setLevel .rollback (placeOrder cause.origin (stopOrder (closeGate (addCause cause s)))) := by
      simp [t, trigger, ho, actStopped, actOpen]
    have hc : ∀ y : State,
        (closeGate y).gate = { y.gate with opState := .frozen, frz := true, ready := true } ∧
        (closeGate y).engine = y.engine ∧ (closeGate y).queue = y.queue ∧
        (closeGate y).intake = y.intake ∧ (closeGate y).region = y.region ∧
        (closeGate y).mem = y.mem ∧ (closeGate y).port = y.port := by
      intro y; unfold closeGate
      have := refuseWaiting_fields (raise .froze (setOpState .frozen y))
      rw [this.1, this.2.1, this.2.2.1, this.2.2.2.1, this.2.2.2.2.1, this.2.2.2.2.2.1,
          this.2.2.2.2.2.2]
      simp [setOpState]
    have hcc := hc (addCause cause s)
    have hs := hstop (closeGate (addCause cause s)) (by rw [hcc.2.1]; rfl) (by rw [hcc.2.2.1]; rfl)
        (by rw [hcc.2.2.2.1]; rfl) (by rw [hcc.1]; simp [addCause, hord])
    rw [ht]
    simp only [setLevel, State.setGate_gate, State.setGate_queue, State.setGate_intake,
        State.setGate_engine, State.setGate_region, State.setGate_mem, State.setGate_port, hs, hcc]
    simp [addCause, hord, ho, Intake.cleared]
  · have ht : t = if (addCause cause s).gate.level.strength < 3 then setLevel .rollback (placeOrder cause.origin (stopOrder (addCause cause s))) else addCause cause s := by
      simp only [t, trigger, ho, actStopped, actOpen]; rfl
    have hs := hstop (addCause cause s) rfl rfl rfl (by simp [addCause, hord])
    rw [ht]
    split
    · rename_i hlt
      have : s.gate.level ≠ .rollback := by intro h; simp [addCause, h, Action.strength] at hlt
      simp only [setLevel, State.setGate_gate, State.setGate_queue, State.setGate_intake,
          State.setGate_engine, State.setGate_region, State.setGate_mem, State.setGate_port, hs]
      simp [addCause, hord, ho, Intake.cleared, this]
    · rename_i hlt
      have : s.gate.level = .rollback := by
        cases h : s.gate.level <;> simp [addCause, h, Action.strength] at hlt ⊢
      simp [addCause, ho, this, hord, hd, hf, hrm, hpc]

/-- A head that has been taken leaves none to take. -/
theorem takeHead_settled (s : State) : takeHead (takeHead s) = takeHead s := by
  cases hq : s.queue.entries with
  | nil => simp [takeHead, hq]
  | cons e q =>
    by_cases h : s.headReady = true
    · have e1 : takeHead s = setDrain (s.firstStage e) s := by simp [takeHead, hq, h]
      have hr : (setDrain (s.firstStage e) s).headReady = false := by
        simp [State.headReady, setDrain, setWork]
      rw [e1]; simp [takeHead, hq, hr]
    · have e1 : takeHead s = s := by simp [takeHead, hq, h]
      rw [e1, e1]

/-- Behind a beginning no order can begin, and none can begin behind the head taken then (R65). -/
theorem beginOrdered_startWork (s : State) : beginOrdered (startWork s) = startWork s := by
  have none_begins : ∀ x : State, x.rollbackReady = false → beginOrdered x = x := by
    intro x h; unfold beginOrdered; split <;> simp [h]
  have begun : (beginOrdered s).rollbackReady = false := by
    by_cases h : s.rollbackReady = true
    · cases ho : s.gate.order with
      | none => simp [State.rollbackReady, ho] at h
      | some o =>
        have e : beginOrdered s = beginRollback o s := by simp [beginOrdered, ho, h]
        have hg : (beginRollback o s).gate.order = none := by
          simp [beginRollback, setWork, withdrawOrder]
        simp [e, State.rollbackReady, hg]
    · rw [none_begins s (by simpa using h)]; simpa using h
  apply none_begins
  unfold startWork takeHead
  split
  · exact begun
  · split
    · simp [State.rollbackReady, setDrain, setWork]
    · exact begun

theorem area_meets_false_iff (x y : Area) : y.meets x = false ↔ (y.last < x.first ∨ x.last < y.first) := by
  simp [Area.meets]; omega

theorem slotBelongs_iff (g j e z ws) : slotBelongs g j e z ws = true ↔ (ws.getD 0 0 = 0x5A31#16 ∧
    wordSum ws = 0xFFFF#16 ∧
            joinWords (ws.getD 1 0) (ws.getD 2 0) = g ∧ (ws.getD 3 0).toNat = j ∧
            (joinWords (ws.getD 4 0) (ws.getD 5 0)).toNat % 8 = 0 ∧
            (joinWords (ws.getD 4 0) (ws.getD 5 0)).toNat < z ∧
            ws.getD 15 0 = e ∧ (j = 0 → ws.getD 14 0 = 0)) := by
  simp [slotBelongs, checkOk, lineLegal, recordGroup, recordLine, recordCheck, recordChain, wordAt,
      Config.lineKind, and_assoc]
  intros; tauto

theorem endRollback_report (r : Rollback) (o : RestoreOutcome) (st i) (y : State) (z : State)
    (hz : z = endRollback r o st i y) :
   z.gate = y.gate ∧ z.intake = y.intake ∧ z.region = y.region ∧
       z.queue = { y.queue with discardedWrites := 0, discardedTokens := 0 } ∧ z.mem = y.mem ∧
       z.port = y.port ∧
   z.engine = { y.engine with work := .idle, abandoned := none } ∧
       z.events = { y.events with restore := { resetReport with origin := r.origin, outcome := o, examined := some r.group, found := r.count, restored := r.restored, closed := y.engine.closed, discardedWrites := y.queue.discardedWrites, discardedTokens := y.queue.discardedTokens, tick := y.time.tick, stopSlot := st.map (BitVec.ofNat 16), mismatches := r.mismatches, anchorIndex := i } } ∧ z.watch = y.watch ∧ z.settings = y.settings ∧
   (∀ c, y.up.cycle = some c → c.phase = .readHeld →
       z.up = { y.up with cycle := some { c with phase := .reading }, timer := none }) := by
  subst hz
  refine ⟨?_, ?_, ?_, ?_, ?_, ?_, ?_, ?_, ?_, ?_, ?_⟩
  all_goals try (simp [endRollback, fillReport, setWork]; done)
  intro c h1 h2
  simp [endRollback, releaseHeld, fillReport, setWork, h1, h2]

theorem openGate_spec (y : State) : (openGate y).intake = y.intake ∧ (openGate y).engine = y.engine ∧
    (openGate y).region = y.region ∧ (openGate y).mem = y.mem ∧ (openGate y).queue = y.queue ∧
    (openGate y).port = y.port ∧
   (openGate y).gate.causes = { y.gate.causes with
          pfail := y.gate.causes.pfail || (y.settings.pfailEnabled && y.gate.pfail.active)
          fault := y.gate.causes.fault || (y.settings.faultEnabled && y.gate.fault.active) } ∧
   (openGate y).gate.opState = (if (openGate y).gate.causes.any then .frozen else .running) ∧
       (openGate y).gate.frz = (openGate y).gate.causes.any ∧ (openGate y).gate.ready = true ∧
   (openGate y).gate.level = y.gate.level ∧ (openGate y).gate.order = y.gate.order ∧
       (openGate y).events.restore = y.events.restore ∧
   (∀ e, (openGate y).flagged e = (y.flagged e || ((openGate y).gate.causes.any && decide (e = .froze)))) := by
  have key : ∀ x : State,
      (examineLine .fault (examineLine .pfail x)).gate = { x.gate with causes := { x.gate.causes with
          pfail := x.gate.causes.pfail || (x.settings.pfailEnabled && x.gate.pfail.active)
          fault := x.gate.causes.fault || (x.settings.faultEnabled && x.gate.fault.active) } } ∧
      (∀ e, (examineLine .fault (examineLine .pfail x)).flagged e = x.flagged e) ∧
          (examineLine .fault (examineLine .pfail x)).events = x.events := by
    intro x
    cases h1 : x.settings.pfailEnabled <;> cases h2 : x.gate.pfail.active <;> cases h3 : x.settings.faultEnabled <;> cases h4 : x.gate.fault.active <;>
     simp [examineLine, State.lineEnabled, State.input, h1, h2, h3, h4, addCause, CauseSet.add,
         lineCause]
  obtain ⟨k1, k2, k3⟩ := key y
  obtain ⟨z, hz⟩ : ∃ z, z = examineLine .fault (examineLine .pfail y) := ⟨_, rfl⟩
  have e1 : openGate y = if z.gate.causes.any then raise .froze (setOpState .frozen z) else setOpState .running z := by rw [hz]; rfl
  rw [← hz] at k1 k2 k3
  have kk : z.intake = y.intake ∧ z.engine = y.engine ∧ z.region = y.region ∧ z.mem = y.mem ∧
      z.queue = y.queue ∧ z.port = y.port := by
    rw [hz]; simp
  rw [e1]
  cases hc : z.gate.causes.any
  · simp only [Bool.false_eq_true, if_false]
    refine ⟨?_, ?_, ?_, ?_, ?_, ?_, ?_, ?_, ?_, ?_, ?_, ?_, ?_, ?_⟩
    all_goals first
      | (simp [setOpState, kk, hc, k3]; done)
      | (simp [setOpState, k1]; done)
      | (intro e; simp [setOpState, k2, hc])
  · simp only [if_true]
    refine ⟨?_, ?_, ?_, ?_, ?_, ?_, ?_, ?_, ?_, ?_, ?_, ?_, ?_, ?_⟩
    all_goals first
      | (simp [setOpState, kk, hc, k3]; done)
      | (simp [setOpState, k1]; done)
      | (intro e; simp [setOpState, k2, hc])

theorem endRecovery_fields (r : Recovery) (o : RestoreOutcome) (gate : State → State) (s : State) :
   let y := fillReport
    { resetReport with origin := .startUp, outcome := o, examined := r.examined,
                       found := r.found, restored := r.restored, stopSlot := r.stop.map (·.1),
                       stopReason := r.stop.map (·.2), mismatches := r.mismatches,
                       anchorIndex := r.current, classes := r.classes,
                       tornAnchor := tornFlag r.classes } s
   endRecovery r o gate s = raise .recovered ((gate y).setEngine { (gate y).engine with work := .idle, count := 0, chain := 0, abandoned := none }) := rfl

theorem wordSum_append (ws : List Word) (w : Word) : wordSum (ws ++ [w]) = wordSum ws + w := by
  induction ws with
  | nil => simp [wordSum]
  | cons x xs ih => simp only [wordSum, List.cons_append,
      List.foldr_cons] at ih ⊢; rw [ih]; exact (BitVec.add_assoc _ _ _).symm

theorem checkWord_sum (ws : List Word) : wordSum (ws ++ [checkWord ws]) = 0xFFFF#16 := by
  rw [wordSum_append]; simp only [checkWord]; 
  have : ∀ x : Word, x + ~~~x = 0xFFFF#16 := by intro x; rw [BitVec.add_not_self]; rfl
  exact this _

theorem joinWords_split (x : Long) : joinWords (upperWord x) (lowerWord x) = x := by
  apply BitVec.eq_of_getLsbD_eq; intro i hi
  simp only [joinWords, upperWord, lowerWord, BitVec.getLsbD_append, BitVec.getLsbD_extractLsb']
  by_cases h : i < 16
  · simp [h]
  · simp [h]
    have : i - 16 < 16 := by omega
    simp [this]; rw [show 16 + (i - 16) = i by omega]

end Sys2Proof.Machine
end

