-- ==== Sys2Proof/Laws/Idle.lean ====
section
/-! SUPPORT. What the part does while no command waits: the acts it may take, and what a CLK period changes. -/

namespace Sys2Proof.Machine

/-! ### The acts -/

@[simp] theorem mem_actIf (b : Bool) (i j : Instr) : i ∈ actIf b j ↔ b = true ∧ i = j := by
  cases b <;> simp [actIf]

/-- An act is due exactly when its moment has come by the Timebase. -/
theorem mem_dueActs (s : State) (i : Instr) : i ∈ s.dueActs ↔
    (s.waitExpired = true ∧ i = .waitLimitExpiry) ∨ (s.lineDue .pfail = true ∧ i = .lineEvent .pfail) ∨
    (s.lineDue .fault = true ∧ i = .lineEvent .fault) ∨ (1000 ≤ s.time.us ∧ i = .tick) ∨
    (s.intake.auto.due = true ∧ i = .autoCommitExpiry) ∨
    (s.events.pulse = some 0 ∧ i = .attnPulseEnd) := by
  simp [State.dueActs]

/-- An act is ready exactly when Intake, the port or the Store Engine can take it. -/
theorem mem_readyActs (s : State) (i : Instr) : i ∈ s.readyActs ↔
    ((s.intake.pendingCommit = true ∧ s.hasSpace = true) ∧ i = .pendingCommitClaim) ∨
    ((s.writeWaits = true ∧ s.writeMayClaim = true) ∧ i = .waitingWriteClaim) ∨
    (s.portClaimed = true ∧ i = .arbiterGrant) ∨
    (s.port.access.isSome = true ∧ i = .accessComplete none) ∨
    ((s.queue.entries ≠ [] ∧ s.headReady = true) ∧ i = .takeHead) ∨
    (s.rollbackReady = true ∧ i = .liveRollbackBegin) := by
  simp [State.readyActs]

theorem waitExpired_iff (s : State) :
    s.waitExpired = true ↔ ∃ w, s.up.timer = some w ∧ w.limit ≤ w.elapsed := by
  unfold State.waitExpired; cases s.up.timer <;> simp

theorem writeWaits_iff (s : State) :
    s.writeWaits = true ↔ ∃ c, s.up.cycle = some c ∧ c.phase = .waitingWrite := by
  unfold State.writeWaits; cases s.up.cycle <;> simp

/-! ### The choice -/

/-- One of the acts is put in the queue, or, past the last of them, a CLK period passes. -/
theorem chooseAct_cases (acts : List Instr) (n : Nat) (s : State) :
    (∃ i ∈ acts, chooseAct acts n s = { s with free := s.free + 1, pending := [i] }) ∨
    (acts.length ≤ s.choose n ∧ chooseAct acts n s = clockPeriod { s with free := s.free + 1 }) := by
  unfold chooseAct
  cases h : acts[s.choose n]? with
  | some i => exact Or.inl ⟨i, List.mem_of_getElem? h, rfl⟩
  | none => exact Or.inr ⟨List.getElem?_eq_none_iff.1 h, rfl⟩

/-- With nothing due and nothing ready one CLK period passes. -/
theorem idle_nothing (s : State) (hd : s.dueActs = []) (hr : s.readyActs = []) :
    idle s = clockPeriod s := by
  simp [idle, hd, hr]

/-- Otherwise an act is put in the queue, or, with nothing due, a CLK period passes. -/
theorem idle_cases (s : State) (h : s.dueActs ≠ [] ∨ s.readyActs ≠ []) :
    (∃ i, (i ∈ s.dueActs ∨ i ∈ s.readyActs) ∧
      idle s = { s with free := s.free + 1, pending := [i] }) ∨
    (s.dueActs = [] ∧ idle s = clockPeriod { s with free := s.free + 1 }) := by
  cases hd : s.dueActs with
  | nil =>
    cases hr : s.readyActs with
    | nil => simp [hd, hr] at h
    | cons i q =>
      have e : idle s = chooseAct (i :: q) ((i :: q).length + 1) s := by simp [idle, hd, hr]
      rw [e]
      rcases chooseAct_cases (i :: q) ((i :: q).length + 1) s with ⟨j, hj, h⟩ | ⟨_, h⟩
      · exact Or.inl ⟨j, Or.inr hj, h⟩
      · exact Or.inr ⟨rfl, h⟩
  | cons i q =>
    have e : idle s = chooseAct (i :: q ++ s.readyActs) (i :: q ++ s.readyActs).length s := by
      simp [idle, hd]
    rw [e]
    rcases chooseAct_cases (i :: q ++ s.readyActs) (i :: q ++ s.readyActs).length s with
      ⟨j, hj, h⟩ | ⟨hl, _⟩
    · exact Or.inl ⟨j, List.mem_append.1 hj, h⟩
    · exact absurd hl (Nat.not_le.2 (Nat.mod_lt _ (by simp)))

/-! ### One CLK period -/

/-- A CLK period within a microsecond adds one to the CLK count. -/
theorem clockPeriod_within (s : State) (h : s.time.clk + 1 < s.time.perUs) :
    clockPeriod s = { s with time := { s.time with clk := s.time.clk + 1 } } := by
  simp [clockPeriod, h, State.setTime]

/-- The last CLK period of a microsecond moves the durations in progress and begins the next one. -/
theorem clockPeriod_last (s : State) (h : s.time.perUs ≤ s.time.clk + 1) :
    clockPeriod s = { s with
      up := { s.up with timer := s.up.timer.map WaitTimer.later }
      gate := { s.gate with pfail := s.resample .pfail, fault := s.resample .fault }
      events := { s.events with pulse := s.events.pulse.map Nat.pred }
      time := { s.time with clk := 0, perUs := s.settings.clockRate.toNat, us := s.time.us + 1 } } := by
  have : ¬ s.time.clk + 1 < s.time.perUs := Nat.not_lt.2 h
  simp [clockPeriod, this, nextMicrosecond, setInput, State.setGate, State.setUp, State.setEvents,
    State.setTime]

end Sys2Proof.Machine
end

