-- ==== Sys2Proof/Tests/Slice0.lean ====
section
/-! SUPPORT. Small tests: the well-formedness checks, single steps, and states that meet the hypotheses of the obligations. -/

namespace Sys2Proof.Tests

open Sys2Proof Sys2Proof.Machine

/-! ### Helpers -/

/-- The next state of an outcome, if there is one. -/
def nextOf (o : Host.Outcome State Fault Refusal) : Option State :=
  match o with
  | .next s => some s
  | .fault _ => none
  | .refused _ => none

/-- A command has a next state that has this property. -/
def after (c : Instr) (s : State) (p : State → Bool) : Bool := ((nextOf (exec c s)).map p).getD false

/-- A table of a JOURNALED, a GUARDED and a CLOSED range. -/
def table : Table :=
  { base := 0x2000#32,
    descs := [{ first := 0x100#32, last := 0x1FF#32, cls := .journaled, flags := 0, tag := 1 },
      { first := 0x200#32, last := 0x2FF#32, cls := .guarded, flags := 0, tag := 2 },
      { first := 0x300#32, last := 0x3FF#32, cls := .closed, flags := 1, tag := 3 }] }

/-- The part in an operating state that takes cycles, with a window of 16 slots at 1000h, the table above
and a frame whose command is still to be taken. -/
def part (o : OpState) : State :=
  { State.reset with
    gate := { State.reset.gate with opState := o, ready := true, frz := decide (o = .frozen) }
    engine := { State.reset.engine with
      work := .idle, durable := { noDurable with windowBase := 0x1000#32, slotCount := 16 } }
    region := { State.reset.region with active := some table }
    link := { State.reset.link with csnLow := true, frame := some { taken := none } } }

/-- The same with this work of the Store Engine. -/
def withWork (w : Work) (s : State) : State := s.setEngine { s.engine with work := w }

/-- The same with this access under way. -/
def withAccess (o : Owner) (a : Access) (s : State) : State :=
  s.setPort { s.port with access := some (o, a) }

/-- The same with these entries in the queue. -/
def withQueue (q : List Entry) (s : State) : State := s.setQueue { s.queue with entries := q }

/-- A cycle at an address of a class, at a phase. -/
def cycleOf (a : Addr) (d : Direction) (cls : RegionClass) (p : CyclePhase) (w : Four WatchSettings) :
    Cycle :=
  { addr := a, direction := d, lanes := .both, data := 0x1234, cls := cls, tag := 7, watch := w,
    phase := p }

/-- The same with this cycle current. -/
def withCycle (c : Cycle) (s : State) : State :=
  s.setUp { s.up with cycle := some c, uwait := true,
                      timer := if c.phase = .reading then none else some { elapsed := 0, limit := 64 } }

/-- The same with watch unit 0 hitting every cycle, with this action. -/
def withWatch (a : WatchAction) (s : State) : State :=
  s.setWatch { s.watch with u0 := { s.watch.u0 with settings :=
    { s.watch.u0.settings with low := 0, high := 0x1FFFFF#21, enables := 1, action := a } } }

/-- A JOURNALED WRITE of the intake group, a DIRECT WRITE, and a SEAL token. -/
def jwrite : WriteEntry :=
  { addr := 0x105#21, data := 0xABCD, lanes := .both
    mark := some { group := 1, copyFirst := true, note := false } }

def dwrite : WriteEntry := { addr := 0x600#21, data := 0x1234, lanes := .upper, mark := none }

/-- Fifteen words of 1 and a word behind them. -/
def ones (n : Nat) : List Word := List.replicate n 1

/-- A read access of the engine. -/
def engineRead (s : State) : State := withAccess .engine { addr := 0x1000, write := none } s

/-- A run of 16 words whose last word is being written. -/
def lastWrite : Burst := { base := 0x1000, words := ones 16, phase := .writing 15 }

/-- The same in its last read-back, with a difference found before. -/
def lastCheck : Burst := { base := 0x1000, words := ones 16, phase := .checking 15 true }

/-- The same access as the burst's. -/
def engineWrite (s : State) : State := withAccess .engine lastWrite.access s

/-! ### Well-formedness and words -/

theorem test_unknown_command_with_a_known_code_is_ill_formed :
    (Instr.unknownCommand 0x01#8).wellFormed = false ∧
    (Instr.unknownCommand 0x0D#8).wellFormed = false ∧
    (Instr.unknownCommand 0x00#8).wellFormed = true ∧
    (Instr.unknownCommand 0x0E#8).wellFormed = true := by decide

theorem test_set_with_an_own_row_is_ill_formed :
    (Instr.set 0x01#8 16).wellFormed = false ∧ (Instr.set 0x0F#8 0).wellFormed = false ∧
    (Instr.set 0x02#8 64).wellFormed = true ∧ (Instr.set 0x10#8 0).wellFormed = true := by decide

theorem test_no_word_spells_a_command : decodeTableWord 8 0x01 = none := by decide

theorem test_withFetchWord_keeps_the_state : State.reset.withFetchWord 8 0x01 = State.reset := rfl

/-! ### Single steps -/

theorem test_direct_write_is_queued :
    after (.upstreamWrite 0x600#21 0x1234 true false) (part .running) (fun t =>
      decide (t.queue.entries = [.write dwrite]) && decide (t.up.cycle = none)) = true := by decide

theorem test_journaled_write_is_copy_first :
    after (.upstreamWrite 0x105#21 0xABCD true true) (part .running) (fun t =>
      decide (t.queue.entries = [.write jwrite]) && t.intake.dirty &&
      decide (t.intake.filter = [0x100#21])) = true := by decide

theorem test_closed_read_is_refused :
    after (.upstreamRead 0x300#21) (part .running) (fun t =>
      t.up.uberr && decide (t.up.readData = some 0xFFFF#16) &&
      decide (t.events.counters.classRefusals = 1)) = true := by decide

theorem test_second_cycle_stops :
    (nextOf (exec (.upstreamRead 0x600#21) (withCycle
      (cycleOf 0x600#21 .read .direct .reading (part .running).watchSettings)
      (part .running)))).isNone = true := by decide

theorem test_freeze_then_thaw :
    after (.freeze 0) (part .running) (fun t => decide (t.gate.opState = .frozen) && t.gate.frz &&
      after .thaw (t.setLink (part .running).link) (fun u => decide (u.gate.opState = .running)))
    = true := by decide

theorem test_commit_with_nothing_is_empty :
    after .commit (part .running) (fun t => decide (t.frameResult = some .empty)) = true := by decide

theorem test_status_names_the_state :
    after .status (part .running) (fun t =>
      decide ((t.frameResponse.map (fun bs => bs.getD 0 0)) = some 3)) = true := by decide

theorem test_reset_recovers :
    (State.reset.engineAccess.isSome && decide (State.reset.gate.opState = .recovering)) = true := by
  decide

/-! ### States that meet the hypotheses: the step and what it keeps -/

theorem test_hyp_step : (part .running).setPending [.status, .tick] =
    (part .running).setPending (.status :: [.tick]) ∧ (part .running).pending = [] := ⟨rfl, rfl⟩

/-- One act due by the Timebase each, at its boundary, and one act ready. -/
theorem test_hyp_idle_acts :
    (part .running).pending = [] ∧ (part .running).dueActs = [] ∧ (part .running).readyActs = [] ∧
    ((part .running).setTime { (part .running).time with us := 999 }).dueActs = [] ∧
    ((part .running).setTime { (part .running).time with us := 1000 }).dueActs = [.tick] ∧
    ((part .running).setUp { (part .running).up with timer := some { elapsed := 63, limit := 64 } }).dueActs =
      [] ∧
    ((part .running).setUp { (part .running).up with timer := some { elapsed := 64, limit := 64 } }).dueActs =
      [.waitLimitExpiry] ∧
    ((part .running).setEvents { (part .running).events with pulse := some 0 }).dueActs =
      [.attnPulseEnd] ∧
    (setInput .fault { active := false, run := some 2, qualified := true, last := some true }
      (part .running)).dueActs = [.lineEvent .fault] ∧
    (withQueue [.write dwrite] (part .running)).readyActs = [.takeHead] := by decide

/-- A CLK period within a microsecond, and the last one: the durations move, and a line samples its last
level. -/
theorem test_hyp_clock :
    let s := ((setInput .pfail { active := false, run := some 1, qualified := false, last := some false }
      ((part .running).setUp { (part .running).up with timer := some { elapsed := 7, limit := 64 } })).setEvents
      { (part .running).events with pulse := some 3 })
    let low := s.setTime { clk := 14, perUs := 16, us := 5, tick := 9 }
    let high := s.setTime { clk := 15, perUs := 16, us := 5, tick := 9 }
    clockPeriod low = low.setTime { clk := 15, perUs := 16, us := 5, tick := 9 } ∧
    (clockPeriod high).time = { clk := 0, perUs := 16, us := 6, tick := 9 } ∧
    (clockPeriod high).up.timer = some { elapsed := 8, limit := 64 } ∧
    (clockPeriod high).events.pulse = some 2 ∧
    (clockPeriod high).gate.pfail =
      { active := false, run := some 2, qualified := true, last := some false } ∧
    (clockPeriod high).gate.fault = (part .running).gate.fault ∧
    (clockPeriod (setInput .fault { resetInput with last := some true } high)).gate.fault =
      { active := false, run := some 0, qualified := false, last := some true } := by decide

theorem test_hyp_commands_complete :
    (Instr.isCycle .tick = false ∨ (part .running).up.cycle = none) ∧
    (Instr.upstreamRead 0#21).isCycle = true ∧
    (withCycle (cycleOf 0#21 .read .direct .reading (part .running).watchSettings)
      (part .running)).up.cycle ≠ none := by decide

/-- A state in RUNNING with a JOURNALED WRITE and a SEAL token queued, a cycle current and a unit hit. -/
def busyPart : State :=
  withCycle (cycleOf 0x600#21 .read .direct .reading (part .running).watchSettings)
    { withQueue [.write jwrite, .sealToken 1 none] (part .running) with
      intake := { (part .running).intake with group := 2, filter := [0x100#21], removed := [8#21] }
      mem := [(2, 5#8), (7, 1#8)]
      pending := [.takeHead] }

theorem test_hyp_invariants_and_step :
    busyPart.MemoryCanonical ∧ busyPart.PinsFollow ∧ busyPart.QueueFits ∧ busyPart.FilterSound ∧
    busyPart.WatchAgrees ∧ busyPart.CycleLinesFollow ∧ busyPart.SettingsInRange ∧
    busyPart.attnFollows = true ∧ busyPart.ModesAgree ∧ busyPart.GroupsAgree ∧
    (nextOf (step busyPart)).isSome = true :=
  ⟨by decide, by decide, by decide, by decide, by decide, by decide, by decide, by decide, by decide,
    by decide, by decide⟩

theorem test_hyp_froze :
    (part .running).ModesAgree ∧ (part .running).PinsFollow ∧
    after (.freeze 0) (part .running) (fun t => decide (t.gate.opState = .frozen)) = true ∧
    (part .frozen).ModesAgree ∧ (part .frozen).PinsFollow ∧ (part .frozen).flagged .froze = false ∧
    after (.freeze 0) (part .frozen) (fun t => decide (t.gate.opState = .frozen)) = true := by decide

theorem test_hyp_memory_written :
    (engineWrite (part .running)).port.access =
      some (.engine, { addr := 0x100F, write := some (1, .both) }) ∧
    after (.accessComplete none) (engineWrite (withWork (.draining (.record lastWrite)) (part .running)))
      (fun t => decide (t.mem.word 0x100F = 1)) = true ∧
    (0x1000 / 2 ≠ 0x100F % (part .running).top) ∧ (part .running).port.access = none ∧
    after (.accessComplete none) (part .running) (fun t => decide (t.mem = [])) = true := by decide

/-! ### Upstream cycles -/

theorem test_hyp_state_refusal :
    State.reset.gate.opState = .recovering ∧ State.reset.up.cycle = none ∧
    (part .formatting).gate.opState = .formatting ∧ (part .formatting).up.cycle = none ∧
    (true || false) = true := by decide

/-- Where the clauses of the lookup meet: below and in the anchor block, at both ends of the window and of
the table, and at both ends of a range. -/
theorem test_hyp_lookup_boundaries :
    (part .running).lookup 0x3FFDF#21 = (.direct, 0) ∧ (part .running).lookup 0x3FFE0#21 = (.reserved, 0) ∧
    (part .running).lookup 0x3FFFF#21 = (.reserved, 0) ∧ (part .running).lookup 0xFFF#21 = (.direct, 0) ∧
    (part .running).lookup 0x1000#21 = (.reserved, 0) ∧ (part .running).lookup 0x10FF#21 = (.reserved, 0) ∧
    (part .running).lookup 0x1100#21 = (.direct, 0) ∧ (part .running).lookup 0x1FFF#21 = (.direct, 0) ∧
    (part .running).lookup 0x2000#21 = (.reserved, 0) ∧ (part .running).lookup 0x2017#21 = (.reserved, 0) ∧
    (part .running).lookup 0x2018#21 = (.direct, 0) ∧ (part .running).lookup 0xFF#21 = (.direct, 0) ∧
    (part .frozen).lookup 0x100#21 = (.journaled, 1) ∧ (part .frozen).lookup 0x1FF#21 = (.journaled, 1) ∧
    (part .frozen).lookup 0x200#21 = (.guarded, 2) ∧ (part .unformatted).lookup 0x100#21 = (.direct, 0) ∧
    (part .running).region.active = some table ∧
    table.descs = [table.descs[0]] ++ table.descs[1] :: [table.descs[2]] := by decide

theorem test_hyp_lookup_staged :
    ({ part .running with region := { (part .running).region with state := .pending 0x3000#32 } }).lookup
      0x307F#21 = (.reserved, 0) ∧
    ({ part .running with region := { (part .running).region with state := .pending 0x3000#32 } }).lookup
      0x3080#21 = (.direct, 0) := by decide

theorem test_hyp_watch_matching :
    ((withWatch .note (part .running)).watchSettings.get 0).hits
      ((part .running).observe 0#21 .read .both 0 .direct) = true ∧
    ((part .running).watchSettings.get 0).hits
      ((part .running).observe 0#21 .read .both 0 .direct) = false ∧
    watchOutcome (withWatch .refuse (part .running)).watchSettings
      ((part .running).observe 0x1FFFFF#21 .read .both 0 .direct) = some .refuse ∧
    watchOutcome (withWatch .freeze (part .running)).watchSettings
      ((part .running).observe 0#21 .write .lower 0 .direct) = some .freeze := by decide

theorem test_hyp_reads_arrive :
    (part .running).up.cycle = none ∧
    ((part .running).lookup ((part .running).cycleAddr 0x3FF#21)).1 = .closed ∧
    ((part .running).lookup ((part .running).cycleAddr 0x400#21)).1 ≠ .closed ∧
    (part .running).gate.opState ≠ .recovering ∧ (part .running).gate.opState ≠ .formatting ∧
    ((part .frozen).lookup ((part .frozen).cycleAddr 0x100#21)).1 = .journaled := by decide

/-- Each class that a write can meet, each outcome of the units, and each ground of the gate. -/
theorem test_hyp_writes_arrive :
    (part .frozen).up.cycle = none ∧ (part .frozen).gate.opState ≠ .recovering ∧
    (part .frozen).gate.opState ≠ .formatting ∧ lanesOf true false = some .upper ∧
    (part .frozen).lookup ((part .frozen).cycleAddr 0x1000#21) = (.reserved, 0) ∧
    (part .frozen).lookup ((part .frozen).cycleAddr 0x200#21) = (.guarded, 2) ∧
    (part .frozen).lookup ((part .frozen).cycleAddr 0x300#21) = (.closed, 3) ∧
    (part .frozen).lookup ((part .frozen).cycleAddr 0x100#21) = (.journaled, 1) ∧
    (part .frozen).lookup ((part .frozen).cycleAddr 0x600#21) = (.direct, 0) ∧
    watchOutcome (part .frozen).watchSettings
      ((part .frozen).observe 0x100#21 .write .upper 0 .journaled) = none ∧
    watchOutcome (withWatch .note (part .frozen)).watchSettings
      ((part .frozen).observe 0x600#21 .write .upper 0 .direct) = some .note ∧
    watchOutcome (withWatch .refuse (part .frozen)).watchSettings
      ((part .frozen).observe 0x100#21 .write .upper 0 .journaled) = some .refuse ∧
    watchOutcome (withWatch .freeze (part .frozen)).watchSettings
      ((part .frozen).observe 0x600#21 .write .upper 0 .direct) = some .freeze ∧
    (part .frozen).gate.opState = .frozen ∧ (part .frozen).settings.scope = .journaledOnly := by decide

theorem test_hyp_write_accepted_or_waits :
    (part .running).gate.opState ≠ .frozen ∧ (part .running).intake.group ≠ 0xFFFFFFFF#32 ∧
    (withQueue (List.replicate 15 (.write dwrite)) (part .running)).queue.entries.length < 16 ∧
    (part .running).intake.pendingCommit = false ∧
    16 ≤ (withQueue (List.replicate 16 (.write dwrite)) (part .running)).queue.entries.length ∧
    after (.upstreamWrite 0x600#21 0x1234 true false)
      ((part .running).setIntake { (part .running).intake with pendingCommit := true })
      (fun t => t.up.uwait && decide (t.queue.entries = [])) = true := by decide

/-- A write waiting for space at an address of a class. -/
def waiting (o : OpState) (a : Addr) (cls : RegionClass) : State :=
  withCycle (cycleOf a .write cls .waitingWrite (part o).watchSettings) (part o)

theorem test_hyp_waiting_write :
    (waiting .running 0x100#21 .journaled).lookup 0x100#21 = (.journaled, 1) ∧
    (waiting .running 0x1000#21 .direct).lookup 0x1000#21 = (.reserved, 0) ∧
    (waiting .frozen 0x100#21 .direct).lookup 0x100#21 = (.journaled, 1) ∧
    (waiting .frozen 0x600#21 .direct).lookup 0x600#21 = (.direct, 0) ∧
    (waiting .frozen 0x600#21 .direct).up.cycle.isSome = true ∧
    (waiting .frozen 0x600#21 .direct).queue.entries.length < 16 ∧
    (waiting .frozen 0x600#21 .direct).intake.pendingCommit = false := by decide

theorem test_hyp_hold_expires :
    ((waiting .running 0x600#21 .direct).up.cycle.map Cycle.phase) = some .waitingWrite ∧
    ((withCycle (cycleOf 0x100#21 .read .journaled .readHeld (part .frozen).watchSettings)
      (part .frozen)).up.cycle.map Cycle.phase) = some .readHeld := by decide

/-- A read granted, with a write of its word queued. -/
def granted (cls : RegionClass) (s : State) : State :=
  withAccess .upstream { addr := 0x600, write := none }
    (withCycle (cycleOf 0x600#21 .read cls .reading s.watchSettings) (withQueue [.write dwrite] s))

theorem test_hyp_forwarding :
    ((granted .direct (part .running)).up.cycle.map Cycle.addr) = some 0x600#21 ∧
    (granted .direct (part .running)).port.access =
      some (.upstream, { addr := 0x600, write := none }) ∧
    watchRefuses (watchOutcome (part .running).watchSettings
      ((part .running).observe 0x600#21 .read .both 0x1200 .direct)) = false ∧
    (granted .direct (part .running)).queue.entries = [] ++ .write dwrite :: [] ∧
    dwrite.addr = 0x600#21 ∧ dwrite.lanes ≠ .lower ∧
    after (.accessComplete none) (granted .direct (part .running))
      (fun t => decide (t.up.readData = some 0x1200#16)) = true ∧
    after (.accessComplete none) (granted .guarded (part .running))
      (fun t => decide (t.up.readData = some 0x0000#16)) = true := by decide

theorem test_hyp_watch_refuses_read :
    after (.accessComplete none) (granted .direct (withWatch .refuse (part .running)))
      (fun t => t.up.uberr && decide (t.events.counters.watchRefusals = 1)) = true ∧
    after (.accessComplete (some 9)) (granted .direct (withWatch .freeze (part .running)))
      (fun t => t.up.uberr && decide (t.gate.opState = .frozen)) = true := by decide

/-- A live rollback reading slot 0. -/
def rolling (p : RollPhase) : Rollback :=
  { origin := .soft, group := 1, count := 1, restored := 0, mismatches := 0, phase := p }

def rollingPart (p : RollPhase) : State := withWork (.rollingBack (rolling p)) (part .frozen)

theorem test_hyp_arbiter :
    (rollingPart (.readSlot 0 5 [])).port.access = none ∧
    (rollingPart (.readSlot 0 5 [])).rollingBack = true ∧
    (rollingPart (.readSlot 0 5 [])).engineAccess = some { addr := 0x1000, write := none } ∧
    (part .running).engineAccess = none ∧ (part .running).rollingBack = false ∧
    (part .running).port.streak < (part .running).settings.streakLimit.toNat ∧
    ((part .running).setPort { access := none, streak := 4 }).settings.streakLimit.toNat ≤
      ((part .running).setPort { access := none, streak := 4 }).port.streak ∧
    ((withCycle (cycleOf 0x100#21 .read .journaled .reading (part .frozen).watchSettings)
      (rollingPart (.readSlot 0 5 []))).up.cycle.map Cycle.phase) = some .reading := by decide

/-- An IDLE engine with the head to take while a read waits: the grant finds the head taken, so the read counts
in the streak, and at the limit the engine is granted (log 41). -/
theorem test_grant_finds_the_work_started :
    let s := withQueue [.write dwrite]
      (withCycle (cycleOf 0x600#21 .read .direct .reading (part .running).watchSettings) (part .running))
    after .arbiterGrant s (fun t => decide (t.engine.work = .draining .apply) &&
      decide (t.port.streak = 1) && decide (t.port.access.map Prod.fst = some .upstream)) = true ∧
    after .arbiterGrant (s.setPort { access := none, streak := 4 }) (fun t =>
      decide (t.port.streak = 0) && decide (t.port.access.map Prod.fst = some .engine)) = true := by
  decide

/-! ### The Store Engine -/

theorem test_empty_queue_gives_no_head :
    (part .running).queue.entries = [] ∧
    after .takeHead (part .running) (fun t => decide (t = part .running)) = true := by decide

theorem test_hyp_take_head :
    (withQueue [.write jwrite] (part .running)).engine.work = .idle ∧
    (part .running).gate.order = none ∧ (part .running).engine.abandoned = none ∧
    (rollingPart (.readSlot 0 5 [])).engine.work ≠ .idle ∧ (part .running).startCondition = true ∧
    (withQueue [.write jwrite] (part .running)).startCondition = false := by decide

theorem test_hyp_runs_of_writes :
    lastWrite.advance false 0 = .ended false ∧
    lastWrite.advance true 0 = .more { lastWrite with phase := .checking 0 false } ∧
    ({ lastWrite with phase := .writing 14 }).advance true 0 = .more lastWrite ∧
    lastCheck.advance true 1 = .ended true ∧
    ({ lastCheck with phase := .checking 14 false }).advance true 1 =
      .more { lastCheck with phase := .checking 15 false } ∧
    (engineWrite (withWork (.draining (.record { lastWrite with phase := .writing 14 }))
      (part .running))).engine.work =
      .draining (.record { lastWrite with phase := .writing 14 }) := by decide

theorem test_hyp_apply :
    after (.accessComplete none) (withAccess .engine { addr := 0x600, write := some (0x1234, .upper) }
      (withWork (.draining .apply) (withQueue [.write dwrite] (part .running))))
      (fun t => decide (t.mem = [(0xC00, 0x12#8)]) && decide (t.queue.entries = [])) = true := by decide

/-- The last word of a line read, ordinal `k`. -/
def copied (k : Word) : State :=
  let s := engineRead (withWork (.draining (.copy (ones 7))) (withQueue [.write jwrite] (part .running)))
  s.setEngine { s.engine with count := k }

theorem test_hyp_record_stages :
    (copied 15).engine.count ≠ (copied 15).engine.durable.slotCount ∧
    (copied 15).engine.work = .draining (.copy (ones 7)) ∧ (ones 7).length = 7 ∧
    after (.accessComplete none) (copied 15) (fun t => decide (t.queue.entries = [.write jwrite])) =
      true ∧
    after (.accessComplete none) (engineWrite (withWork (.draining (.record lastWrite))
      (withQueue [.write jwrite] (part .running)))) (fun t => decide (t.engine.count = 1)) = true := by
  decide

/-- Journal full; a verify failure on a record with no record counted; and one on an anchor. -/
theorem test_hyp_journal_faults :
    (copied 16).engine.count = (copied 16).engine.durable.slotCount ∧
    (copied 16).gate.opState = .running ∧
    after (.accessComplete none) (copied 16) (fun t => decide (t.gate.opState = .frozen) &&
      decide (t.queue.entries = []) && decide (t.engine.abandoned = some 1)) = true ∧
    after (.accessComplete (some 1)) (engineRead (withWork (.draining (.record lastCheck))
      (withQueue [.write jwrite] (part .running))))
      (fun t => decide (t.events.restore.outcome = .empty)) = true ∧
    after (.accessComplete (some 1)) (engineRead (withWork (.draining (.anchor lastCheck))
      (withQueue [.sealToken 1 (some { base := 0x2000#32, count := 3 })] (part .frozen))))
      (fun t => t.rollingBack && decide (t.region.state = .ready table)) = true ∧
    after (.accessComplete (some 1)) (engineRead (withWork (.draining (.anchor lastCheck))
      (withQueue [.sealToken 1 (some { base := 0x2000#32, count := 3 }), .tableToken 0x3000#32]
        { part .frozen with region := { (part .frozen).region with state := .pending 0x3000#32 } })))
      (fun t => decide (t.region.state = .pending 0x3000#32) && decide (t.region.active = none)) = true :=
  by decide

/-- A last group's seal and an ordinary one, with and without a switch. -/
theorem test_hyp_seal_completes :
    after (.accessComplete none) (engineWrite (withWork (.draining (.anchor lastWrite))
      (withQueue [.sealToken 1 none] (part .running)))) (fun t => decide (t.engine.closed = 1)) = true ∧
    after (.accessComplete none) (engineWrite (withWork (.draining (.anchor lastWrite))
      (withQueue [.sealToken 0xFFFFFFFE#32 (some { base := 0x2000#32, count := 3 })]
        ((part .running).setEngine { (part .running).engine with closed := 0xFFFFFFFD#32 }))))
      (fun t => t.gate.causes.exhausted && decide (t.engine.durable.tableCount = 3)) = true := by decide

/-- The words of a descriptor of one JOURNALED line at 100h, with these flags. -/
def descWords (flags : Word) : List Word := withCheck [0, 0x100, 0, 0x107, 1, flags, 9]

/-- The descriptor that those words give. -/
def descRead (flags : Word) : Descriptor :=
  { first := 0x100#32, last := 0x107#32, cls := .journaled, flags := flags, tag := 9 }

/-- The last word of a descriptor of these words under way, with these descriptors kept. -/
def tableRead (ws : List Word) (kept : List Descriptor) (s : State) : State :=
  withAccess .engine { addr := 0x3000 + 8 * kept.length + 7, write := none }
    (withWork (.draining (.tableRead (ws.take 7) kept)) (withQueue [.tableToken 0x3000#32]
      { s with mem := s.mem.writeWord (0x3000 + 8 * kept.length + 7) (ws.getD 7 0) .both }))

/-- An active table with one locked descriptor. -/
def lockedPart : State :=
  { part .running with
    region := { (part .running).region with active := some { base := 0x2000#32, descs := [descRead 3] } } }

/-- The read of a table's last word: kept, rejected, without END, and accepted; and a lock not kept. -/
theorem test_hyp_table_read_ends :
    after (.accessComplete none) (tableRead (descWords 0) [] (part .running))
      (fun t => decide (t.engine.work = .draining (.tableRead [] [descRead 0]))) = true ∧
    after (.accessComplete none) (tableRead (withCheck [0, 0x101, 0, 0x107, 1, 0, 9]) [] (part .running))
      (fun t => decide (t.region.result.outcome = .align ∧ t.region.result.read = 1)) = true ∧
    after (.accessComplete none) (tableRead (descWords 1) [] (part .running))
      (fun t => decide (t.region.state = .ready { base := 0x3000#32, descs := [descRead 1] })) = true ∧
    after (.accessComplete none) (tableRead (descWords 1) [] lockedPart)
      (fun t => decide (t.region.result.outcome = .lock ∧ t.region.state = .none)) = true := by decide

theorem test_hyp_table_reads :
    (part .running).checkDescriptor 0x3000 none (descWords 1) = .inr (descRead 1) ∧
    (part .running).checkDescriptor 0x3000 none (descWords 0) = .inr (descRead 0) ∧
    (part .running).checkDescriptor 0x1000 none (descWords 0) = .inl .reserved ∧
    (part .running).checkDescriptor 0x3000 none ((descWords 1).take 7 ++ [0]) = .inl .check ∧
    (part .running).checkWhole { base := 0x3000#32, descs := [] ++ [descRead 1] } true = none ∧
    (part .running).checkDescriptor 0x3000 none (withCheck [0, 0x100, 0, 0x107, 4, 0, 9]) = .inl .cls ∧
    (part .running).checkDescriptor 0x3000 none (withCheck [0, 0x108, 0, 0x107, 1, 0, 9]) = .inl .range ∧
    (part .running).checkDescriptor 0x3000 none (withCheck [0, 0x100, 4, 0x0007, 1, 0, 9]) = .inl .range ∧
    (part .running).checkDescriptor 0x3000 (some (descRead 0)) (descWords 0) = .inl .order ∧
    (part .running).checkDescriptor 0x3000 none (withCheck [0, 0x101, 0, 0x107, 1, 0, 9]) = .inl .align ∧
    (part .running).checkDescriptor 0x3000 none (withCheck [0, 0x108, 0, 0x1007, 1, 0, 9]) =
      .inl .reserved ∧
    (part .running).checkDescriptor 0xFF8 none (descWords 0) = .inr (descRead 0) ∧
    (part .running).checkWhole { base := 0x107#32, descs := [] ++ [descRead 1] } true =
      some (.reserved, 0) ∧
    (part .running).checkWhole { base := 0x108#32, descs := [descRead 1] } true = none ∧
    (lockedPart.checkWhole { base := 0x3000#32, descs := [descRead 1] } true) = some (.lock, 0) ∧
    (lockedPart.checkWhole { base := 0x3000#32, descs := [descRead 3] } true) = none ∧
    (lockedPart.checkWhole { base := 0x3000#32, descs := [descRead 1] } false) = none ∧
    ((descWords 1).take 7).length = 7 ∧
    (withQueue [.tableToken 0x3000#32] (part .running)).queue.entries = .tableToken 0x3000#32 :: [] :=
  by decide

theorem test_hyp_rollback_begins :
    ((part .frozen).setGate { (part .frozen).gate with order := some .command }).startCondition = true ∧
    after .liveRollbackBegin ((part .frozen).setGate { (part .frozen).gate with order := some .command })
      (fun t => decide (t.events.restore.outcome = .empty)) = true ∧
    after .liveRollbackBegin (((part .frozen).setGate { (part .frozen).gate with
      order := some .command }).setEngine { (part .frozen).engine with count := 2 })
      (fun t => t.rollingBack) = true ∧
    (withQueue [.sealToken 1 none] (part .frozen)).startCondition = false := by decide

/-- A record of group 1, ordinal 0, of the line at 100h. -/
def record : List Word := recordWords 1 0 0x100#32 (ones 8) 0

theorem test_hyp_slots_restored :
    record.length = 16 ∧ (record.take 15).length = 15 ∧
    slotBelongs 1 0 (record.getD 15 0) ((part .frozen).anchorAddr 0) record = true ∧
    slotBelongs 1 0 (record.getD 15 0 + 1) ((part .frozen).anchorAddr 0) record = false ∧
    (rolling (.readSlot 0 (record.getD 15 0) (record.take 15))).phase =
      .readSlot 0 (record.getD 15 0) (record.take 15) ∧
    after (.accessComplete none) (engineWrite (rollingPart (.restore 0 0 lastWrite)))
      (fun t => t.rollingBack) = true ∧
    after (.accessComplete none) (engineWrite (rollingPart (.restore 1 0 lastWrite)))
      (fun t => t.rollingBack) = true := by decide

/-- The retraction of a failed anchor done: with records and with none, and a difference in it counted. -/
theorem test_hyp_retraction_ends :
    after (.accessComplete none) (engineWrite (withWork (.rollingBack { rolling (.retract lastWrite) with
      count := 2 }) (part .frozen))) (fun t => decide (t.engine.work = .rollingBack
        { rolling (.readSlot 1 0 []) with count := 2 })) = true ∧
    after (.accessComplete none) (engineWrite (withWork (.rollingBack { rolling (.retract lastWrite) with
      count := 0 }) (part .frozen))) (fun t => decide (t.events.restore.outcome = .empty)) = true ∧
    after (.accessComplete (some 0)) (engineRead (withWork (.rollingBack { rolling (.retract lastCheck) with
      count := 0 }) ((part .frozen).setSettings { (part .frozen).settings with verify := true })))
      (fun t => decide (t.events.restore.mismatches = 1)) = true := by decide

theorem test_hyp_rollback_ends :
    after (.accessComplete none) (engineWrite (rollingPart (.void none lastWrite)))
      (fun t => decide (t.engine.closed = 1) && decide (t.events.restore.outcome = .voided) &&
        decide (t.intake.group = 2)) = true ∧
    after (.accessComplete none) (engineWrite (rollingPart (.void (some 0) lastWrite)))
      (fun t => decide (t.events.restore.outcome = .torn)) = true ∧
    after (.accessComplete none) (withCycle (cycleOf 0x100#21 .read .journaled .readHeld
      (part .frozen).watchSettings) (engineWrite (rollingPart (.void none lastWrite))))
      (fun t => decide (t.up.cycle.map Cycle.phase = some .reading)) = true := by decide

/-! ### Recovery, Format and the durable structures -/

/-- The anchor of a Format with a window at 1000h of 16 slots. -/
def formatted : Anchor :=
  { group := 0, outcome := 1, windowBase := 0x1000#32, slotCount := 16, tableBase := 0, tableCount := 0
    index := 0, records := 0, msize := 0, formatCount := 1 }

theorem test_hyp_recovery_decides :
    classifyAnchor 0 0x3FFE0 0 formatted.words = .valid ∧
    classifyAnchor 0 0x3FFE0 1 formatted.words = .damaged ∧
    classifyAnchor 0 0x3FFE0 1 (List.replicate 16 0) = .empty ∧
    classifyAnchor 0 0x3FFE0 1 (ones 16) = .torn ∧
    decideAnchors .valid .empty formatted formatted = .current 0 formatted ∧
    decideAnchors .valid .damaged formatted formatted = .damage ∧
    decideAnchors .torn .empty formatted formatted = .unformatted ∧
    formatted.group ≠ 0xFFFFFFFE#32 ∧ State.reset.anchorAddr 0 = 0x3FFE0 ∧
    (formatted.words ++ List.replicate 15 0).length = 31 := by decide

/-- A SEALED anchor of the last group. -/
def lastAnchor : Anchor := { formatted with group := 0xFFFFFFFE#32, outcome := 2 }

/-- Recovery with an anchor read whole, the rest zeros, and with all zeros. -/
theorem test_hyp_recovery_reads :
    after (.accessComplete none) (engineRead (withWork (.recovering { freshRecovery with
      phase := .anchors (formatted.words ++ List.replicate 15 0) }) State.reset))
      (fun t => decide (t.engine.durable.slotCount = 16)) = true ∧
    after (.accessComplete none) (engineRead (withWork (.recovering { freshRecovery with
      phase := .anchors (List.replicate 31 0) }) State.reset))
      (fun t => decide (t.gate.opState = .unformatted)) = true ∧
    after (.accessComplete none) (engineRead (withWork (.recovering { freshRecovery with
      phase := .anchors (List.replicate 15 0 ++ [1] ++ formatted.words.take 15) }) State.reset))
      (fun t => decide (t.gate.opState = .unformatted)) = true ∧
    after (.accessComplete (some (formatted.words.getD 15 0))) (engineRead (withWork (.recovering
      { freshRecovery with phase := .anchors (List.replicate 16 0 ++ formatted.words.take 15) })
      State.reset)) (fun t => t.gate.causes.anchor) = true := by decide

/-- A recovery that scans slot `j`. -/
def scanning (j : Nat) (got : List Word) : State :=
  engineRead (withWork (.recovering { freshRecovery with
    classes := some (.valid, .empty), current := some 0, examined := some 1
    phase := .scan j 0 got })
    ((part .recovering).setEngine { (part .recovering).engine with
      durable := { noDurable with windowBase := 0x1000#32, slotCount := 16 } }))

theorem test_hyp_recovery_scan :
    classifySlot 1 0 0 0x3FFE0 record = .belongs ∧
    classifySlot 1 0 0 0x3FFE0 (record.take 15 ++ [0]) = .torn ∧
    classifySlot 1 15 0 0x3FFE0 (recordWords 1 15 0x100#32 (ones 8) 0) = .belongs ∧
    classifySlot 1 0 0 0x3FFE0 (List.replicate 16 0) = .empty ∧
    classifySlot 1 0 0 0x3FFE0 (ones 16) = .foreign ∧
    after (.accessComplete none) (scanning 0 (List.replicate 15 0))
      (fun t => decide (t.events.restore.outcome = .clean) && decide (t.gate.opState = .running)) =
      true ∧
    after (.accessComplete none) (scanning 1 (List.replicate 15 0))
      (fun t => decide (t.gate.opState = .recovering)) = true ∧
    0 + 1 < (scanning 0 []).engine.durable.slotCount.toNat ∧
    (scanning 15 []).engine.durable.slotCount.toNat ≤ 15 + 1 := by decide

/-- A recovery at a phase behind the scan. -/
def recoveringAt (p : RecPhase) (s : State) : State :=
  withWork (.recovering { freshRecovery with
    classes := some (.valid, .empty), current := some 0, examined := some 1, found := 1, phase := p }) s

/-- The records found read again: one that matches, one that does not; the restores and the VOIDED anchor. -/
theorem test_hyp_recovery_restores :
    after (.accessComplete none) (withAccess .engine { addr := 0x100F, write := none }
      (recoveringAt (.reread 0 (record.take 15)) { part .recovering with
        mem := (part .recovering).mem.writeWord 0x100F (record.getD 15 0) .both }))
      (fun t => decide (t.engine.work.isRecovering = true) && decide (t.engineAccess =
        some { addr := 0x100, write := some (1, .both) })) = true ∧
    after (.accessComplete none) (engineRead (recoveringAt (.reread 1 (List.replicate 15 0)) (part .recovering)))
      (fun t => decide (t.engineAccess = some { addr := 0x1000, write := none })) = true ∧
    after (.accessComplete none) (engineRead (recoveringAt (.reread 0 (List.replicate 15 0)) (part .recovering)))
      (fun t => decide (t.engineAccess = some { addr := 0x3FFF0, write := some (0x5A32, .both) })) =
      true ∧
    after (.accessComplete none) (engineWrite (recoveringAt (.restore 0 lastWrite) (part .recovering)))
      (fun t => decide (t.engineAccess = some { addr := 0x3FFF0, write := some (0x5A32, .both) })) =
      true ∧
    after (.accessComplete none) (engineWrite (recoveringAt (.void lastWrite) (part .recovering)))
      (fun t => decide (t.gate.opState = .running) && decide (t.engine.closed = 1) &&
        decide (t.intake.group = 2) && decide (t.events.restore.found = 1)) = true := by decide

/-- A recovery that reads the last word of a table of one descriptor. -/
def loading (count : Word) (base : Long) (ws : List Word) : State :=
  withAccess .engine { addr := base.toNat + 7, write := none }
    (recoveringAt (.table (ws.take 7) []) { part .recovering with
      mem := (part .recovering).mem.writeWord (base.toNat + 7) (ws.getD 7 0) .both
      region := { (part .recovering).region with active := none }
      engine := { (part .recovering).engine with durable := { (part .recovering).engine.durable with
        tableBase := base, tableCount := count } } })

/-- The table of the durable configuration: accepted, rejected, without END or with more after END. -/
theorem test_hyp_recovery_table :
    after (.accessComplete none) (loading 1 0x3000#32 (descWords 1)) (fun t =>
      decide (t.gate.opState = .running) &&
      decide (t.region.active = some { base := 0x3000#32, descs := [descRead 1] })) = true ∧
    after (.accessComplete none) (loading 1 0x3000#32 (descWords 0)) (fun t =>
      decide (t.gate.opState = .frozen) && t.gate.causes.table &&
      decide (t.region.result.outcome = .noEnd)) = true ∧
    after (.accessComplete none) (loading 2 0x3000#32 (descWords 1)) (fun t =>
      decide (t.region.result.outcome = .noEnd)) = true ∧
    after (.accessComplete none) (loading 2 0x3000#32 (descWords 0)) (fun t =>
      decide (t.engine.work.isRecovering = true)) = true ∧
    after (.accessComplete none) (loading 1 0x100#32 (descWords 1)) (fun t =>
      decide (t.region.result.outcome = .reserved)) = true ∧
    (beginTableLoad freshRecovery (loading 1 0x3001#32 [])).region.result.outcome = .align ∧
    (beginTableLoad freshRecovery (loading 1 0x40000#32 [])).region.result.outcome = .range ∧
    (beginTableLoad freshRecovery (loading 0 0x3000#32 [])).region.result.outcome = .accepted ∧
    (beginTableLoad freshRecovery (loading 1 0x3FFF8#32 [])).engine.work.isRecovering = true := by decide

/-- A current anchor of the last group: cause EXHAUSTED and no scan. -/
theorem test_hyp_recovery_exhausted :
    after (.accessComplete none) (engineRead (withWork (.recovering { freshRecovery with
      phase := .anchors (lastAnchor.words ++ List.replicate 15 0) }) State.reset))
      (fun t => t.gate.causes.exhausted && decide (t.gate.opState = .frozen) &&
        decide (t.intake.group = 0xFFFFFFFF#32)) = true := by decide

/-- A Format at this point. -/
def formattingPart (p : FormatPhase) : State :=
  withWork (.formatting { base := 0x1000#32, slots := 16, formatCount := 1, phase := p })
    (part .formatting)

theorem test_hyp_format_ends :
    after (.accessComplete none) (engineWrite (formattingPart (.anchor lastWrite)))
      (fun t => decide (t.gate.opState = .running) && decide (t.engine.durable.formatCount = 1)) =
      true ∧
    after (.accessComplete (some 1)) (engineRead (formattingPart (.anchor lastCheck)))
      (fun t => decide (t.gate.opState = .formatting)) = true ∧
    after (.accessComplete none) (engineWrite (formattingPart (.retract lastWrite)))
      (fun t => decide (t.gate.opState = .unformatted)) = true := by decide

/-- Format reading the anchors, clearing them and clearing the window, at the ends of each. -/
theorem test_hyp_format_accesses :
    after (.accessComplete none) (engineRead (formattingPart (.anchors (formatted.words ++
      List.replicate 15 0)))) (fun t => decide (t.engine.work = .formatting
        { base := 0x1000#32, slots := 16, formatCount := 2, phase := .clearAnchors 1 0 })) = true ∧
    after (.accessComplete none) (engineRead (formattingPart (.anchors (List.replicate 31 0))))
      (fun t => decide (t.engine.work = .formatting
        { base := 0x1000#32, slots := 16, formatCount := 1, phase := .clearAnchors 1 0 })) = true ∧
    (formattingPart (.clearAnchors 1 0)).engineAccess =
      some { addr := 0x3FFF0, write := some (0, .both) } ∧
    (formattingPart (.clearAnchors 1 15)).engineAccess =
      some { addr := 0x3FFFF, write := some (0, .both) } ∧
    (formattingPart (.clearAnchors 1 16)).engineAccess =
      some { addr := 0x3FFE0, write := some (0, .both) } ∧
    (formattingPart (.clearAnchors 0 31)).engineAccess =
      some { addr := 0x3FFFF, write := some (0, .both) } ∧
    after (.accessComplete none) (engineRead (formattingPart (.clearAnchors 1 31)))
      (fun t => decide (t.engineAccess = some { addr := 0x1000, write := some (0, .both) })) = true ∧
    after (.accessComplete none) (engineRead (formattingPart (.clearWindow 254)))
      (fun t => decide (t.engineAccess = some { addr := 0x10FF, write := some (0, .both) })) = true ∧
    after (.accessComplete none) (engineRead (formattingPart (.clearWindow 255)))
      (fun t => decide (t.engineAccess = some { addr := 0x3FFE0, write := some (0x5A32, .both) })) =
      true := by decide

theorem test_hyp_durable_structures :
    (ones 8).length = 8 ∧ (0x100#32).toNat % 8 = 0 ∧ (0x100#32).toNat < 0x3FFE0 ∧
    formatted.words.getD 0 0 = 0x5A32#16 ∧ wordSum formatted.words = 0xFFFF#16 := by decide

/-! ### Samples, events and ticks -/

theorem test_hyp_line_samples :
    (part .running).intake.sealSample = none ∧ (part .running).gate.pfail.last = none ∧
    (part .running).gate.fault.last = none ∧ ((part .running).input .pfail).run = none ∧
    after .sealNegated (part .running) (fun t => decide (t.intake.sealSample = some false)) = true ∧
    after (.lineRunBegin .fault) (part .running) (fun t => decide ((t.input .fault).run ≠ none)) = true :=
  by decide

/-- PFAIL with a run of 2 microseconds. -/
def pfailRun (o : OpState) : State :=
  setInput .pfail { active := false, run := some 2, qualified := true, last := some false } (part o)

theorem test_hyp_line_events :
    ((pfailRun .running).input .pfail).run = some 2 ∧
    ((pfailRun .running).input .pfail).active = false ∧
    after (.lineEvent .pfail) (pfailRun .running) (fun t => decide (t.gate.opState = .frozen) &&
      t.gate.causes.pfail) = true ∧
    after (.lineEvent .pfail) (pfailRun .unformatted) (fun t =>
      decide (t.gate.opState = .unformatted) && (t.input .pfail).active) = true ∧
    ((part .running).input .fault).run = none := by decide

/-- The auto-commit request due, in an operating state, with or without a group to commit. -/
def due (o : OpState) (dirty pending : Bool) : State :=
  (part o).setIntake { (part o).intake with
    dirty := dirty, pendingCommit := pending, auto := { count := 3, running := false, due := true } }

theorem test_hyp_timebase :
    (part .running).intake.auto.due = false ∧ (due .running true false).intake.auto.due = true ∧
    (due .running true false).commitStep = .token ∧ (due .running true true).commitStep = .merged ∧
    (due .running false false).commitStep = .nothing ∧
    (due .unformatted true false).commitStep = .refusedBy .unformatted ∧
    (withQueue (List.replicate 16 (.write dwrite)) (due .running true false)).commitStep = .held ∧
    (part .running).events.pulse = none ∧
    ((part .running).setEvents { (part .running).events with pulse := some 0 }).events.pulse ≠ none := by
  decide

/-! ### The control link -/

theorem test_hyp_frames :
    State.reset.link.csnLow = false ∧ State.reset.link.seenHigh = true ∧
    (part .running).link.csnLow = true ∧ (part .running).link.frame = some { taken := none } ∧
    State.reset.link.frame ≠ some { taken := none } ∧
    ((0 : Byte) = 0 ∨ 0x0D#8 < 0#8) ∧ 0x0D#8 < 0x0E#8 ∧ Instr.isLinkCommand .commit = true := by decide

theorem test_hyp_readouts :
    settingOf 0x01#8 = some .clockRate ∧ settingOf 0x00#8 = none ∧ (1#8).toNat = 1 ∧ (8#8).toNat ≤ 8 ∧
    (part .running).events.refusal = none ∧ 8 < (9#8).toNat := by decide

/-- A captured refusal and a captured hit. -/
theorem test_hyp_captures :
    after (.upstreamRead 0x300#21) (part .running) (fun t => after (.readReport 0x03#8) t (fun u =>
      decide (u.frameResponse = some [1, 0x00, 0x03, 0x00, 0, 0, 0, 3, 0, 0]))) = true ∧
    after (.upstreamWrite 0x600#21 0x1234 true false) (withWatch .note (part .running)) (fun t =>
      after (.readReport 0x04#8) t (fun u => decide (u.frameResponse =
        some [1, 0, 1, 0x00, 0x06, 0x00, 1, 1, 0x12, 0x00, 0, 0, 0, 0, 1, 0, 0]))) = true ∧
    (part .running).region.result.base.toNat < 2 ^ 24 ∧ (0x04#8).toNat = 4 + (0 : Fin 4).val ∧
    (part .running).events.restore.classes = none := by decide

theorem test_hyp_busy :
    Instr.isLinkCommand .commit = true ∧ Instr.isReadout .commit = false ∧
    (part .recovering).gate.opState = .recovering ∧
    (part .recovering).link.frame = some { taken := none } ∧
    after .commit (part .recovering) (fun t => decide (t.frameResult ≠ some .done)) = true := by decide

theorem test_hyp_set :
    (Instr.set 0x02#8 64).setOf = some (0x02#8, 64) ∧ settingOf 0x02#8 = some .waitLimit ∧
    (Setting.waitLimit).accepts 0 = false ∧ (Setting.waitLimit).accepts 1 = true ∧
    (Setting.waitLimit).accepts 1023 = true ∧ (Setting.waitLimit).accepts 1024 = false ∧
    settingOf 0x20#8 = some (.watch 0 .lowUpper) ∧ settingOf 0x29#8 = some (.watch 0 .action) ∧
    settingOf 0x2A#8 = none ∧ settingOf 0x2F#8 = none ∧ settingOf 0x30#8 = some (.watch 1 .lowUpper) ∧
    settingOf 0x59#8 = some (.watch 3 .action) ∧ settingOf 0x5A#8 = none ∧ settingOf 0x10#8 = none ∧
    settingOf 0x1F#8 = none ∧ (Setting.watch 0 .lowUpper).accepts 0x1F = true ∧
    (Setting.watch 0 .lowUpper).accepts 0x20 = false ∧ (Setting.watch 3 .cls).accepts 4 = true ∧
    (Setting.watch 3 .cls).accepts 5 = false ∧
    (Setting.watch 0 .highUpper).read (withWatch .note (part .running)) = 0x1F ∧
    (Setting.watch 0 .highLower).read (withWatch .note (part .running)) = 0xFFFF ∧
    Setting.waitLimit.read (part .running) = 64 ∧ (part .running).gate.opState ≠ .recovering ∧
    (part .running).gate.opState ≠ .formatting := by decide

/-- PFAIL ACTIVE and disabled by the freeze mask, FAULT ACTIVE and disabled as after a reset. -/
def maskedActive : State :=
  let s := setInput .fault { active := true, run := some 2, qualified := true, last := some true }
    (setInput .pfail { active := true, run := some 2, qualified := true, last := some false }
      (part .running))
  s.setSettings { s.settings with pfailEnabled := false }

theorem test_hyp_set_effects :
    (part .running).settings.faultPolarity = .highActive ∧ maskedActive.settings.pfailEnabled = false ∧
    (1#16).getLsbD 0 = true ∧ (1#16).getLsbD 1 = false ∧ maskedActive.gate.pfail.active = true ∧
    maskedActive.settings.faultEnabled = false ∧ (2#16).getLsbD 1 = true ∧ (2#16).getLsbD 0 = false ∧
    maskedActive.gate.fault.active = true ∧ (0#16).getLsbD 0 = false ∧ (0#16).getLsbD 1 = false ∧
    (waiting .frozen 0x600#21 .direct).settings.scope = .journaledOnly ∧
    ((waiting .frozen 0x600#21 .direct).up.cycle.map Cycle.direction) = some .write ∧
    (part .running).up.cycle = none ∧ (1#16) ≠ (part .running).settings.enables.zeroExtend 16 ∧
    (part .running).settings.attnMode = .level ∧
    after (.setAttnMode 1) (part .running) (fun t => decide (t.settings.attnMode = .pulse)) = true := by
  decide

/-! ### The claim before a request, the interval, and the clock (log 13, R43, R56, R177) -/

/-- A free entry while a write waits for it: the claim is made before LOAD TABLE, COMMIT and the auto-commit
request, and a state with no claim to make stays. -/
theorem test_hyp_claim_before_request :
    after .waitingWriteClaim (waiting .running 0x600#21 .direct)
      (fun t => decide (t.queue.entries.length = 1)) = true ∧
    after (.loadTable 0x3000#24) (waiting .running 0x600#21 .direct) (fun t =>
      decide ((t.queue.entries.getD 0 (.tableToken 0)).isSeal = false) && decide (t.up.cycle = none) &&
      decide (t.queue.entries.getLast? = some (.tableToken 0x3000#32))) = true ∧
    after .commit (waiting .running 0x100#21 .journaled)
      (fun t => decide ((t.queue.entries.map Entry.isSeal) = [false, true])) = true ∧
    after .waitingWriteClaim (part .running) (fun t => decide (t.mem = [] ∧ t.queue = (part .running).queue)) =
      true ∧
    after .sealEdge ((waiting .running 0x100#21 .journaled).setIntake
      { (waiting .running 0x100#21 .journaled).intake with sealSample := some false })
      (fun t => decide ((t.queue.entries.map Entry.isSeal) = [false, true])) = true := by decide

/-- A result other than DONE changes no state: the waiting write still has its claim to make (R167). -/
theorem test_refused_requests_make_no_claim :
    after (.loadTable 0x3001#24) (waiting .running 0x600#21 .direct) (fun t =>
      decide (t = (waiting .running 0x600#21 .direct).answered 3 .badReq [])) = true ∧
    after .commit (waiting .running 0x600#21 .direct) (fun t =>
      decide (t = (waiting .running 0x600#21 .direct).answered 0 .empty [])) = true := by decide

/-- A free entry at a freeze with action SEAL: a waiting write in the scope is refused and its entry goes to
the token (R110), one outside the scope claims it first (R43). -/
theorem test_hyp_claim_before_seal :
    after (.freeze 1) ((waiting .running 0x100#21 .journaled).setIntake
      { (waiting .running 0x100#21 .journaled).intake with dirty := true })
      (fun t => t.up.uberr && decide (t.queue.entries.map Entry.isSeal = [true]) &&
        decide (t.events.refusal.map RefusalCapture.reason = some .gate)) = true ∧
    after (.freeze 1) ((waiting .running 0x600#21 .direct).setIntake
      { (waiting .running 0x600#21 .direct).intake with dirty := true })
      (fun t => decide (t.up.cycle = none) && decide (t.queue.entries.map Entry.isSeal = [false, true])) =
      true := by decide

/-- The last group voided with a token of it held: the numbers rise as R3 says (log 39). -/
theorem test_last_group_voided_under_a_held_token :
    let s := withQueue [.sealToken 0xFFFFFFFE#32 none]
      (engineWrite (rollingPart (.void none lastWrite)))
    after (.accessComplete none) { s with
      engine := { s.engine with
        closed := 0xFFFFFFFD#32
        work := .rollingBack { rolling (.void none lastWrite) with group := 0xFFFFFFFE#32 } }
      intake := { s.intake with group := 0xFFFFFFFF#32 } }
      (fun t => t.gate.causes.exhausted && decide (t.intake.group = 0) &&
        decide (t.queue.entries = [.sealToken 0xFFFFFFFF#32 none])) = true := by decide

/-- FROZEN with cause EXHAUSTED and a READY table: no commit request is taken, whatever I is (R5, R88). -/
theorem test_exhausted_bars_commits :
    let s := (part .frozen).setRegion { (part .frozen).region with state := .ready table }
    let e := s.setGate { s.gate with causes := noCauses.add .exhausted }
    s.commitStep = .token ∧ e.commitStep = .refusedBy .notPermitted ∧
    after .commit e (fun t => decide (t.frameResult = some .notPermitted) &&
      decide (t.queue.entries = [])) = true ∧
    after (.freeze 1) e (fun t => decide (t.queue.entries = [])) = true ∧
    after .pendingCommitClaim (e.setIntake { e.intake with pendingCommit := true })
      (fun t => !t.intake.pendingCommit && decide (t.queue.entries = [])) = true := by decide

/-- A new interval starts no count before the next tick; a new clock rate holds from the tick on. -/
theorem test_hyp_interval_and_rate :
    after (.setAutoCommitInterval 3) (part .running) (fun s =>
      after (.upstreamWrite 0x105#21 0xABCD true true) s (fun t =>
        !t.intake.auto.running && after .tick t (fun u => u.intake.auto.running))) = true ∧
    after (.setClockRate 8) (part .running) (fun s => after .tick s (fun t => decide (t.time.perUs = 8))) =
      true ∧ (part .running).time.us < 1000 := by decide

/-- A write of one lane leaves the other lane, and a failing memory answers for both. -/
theorem test_hyp_memory_lanes :
    after (.accessComplete none) (withAccess .engine { addr := 0x600, write := some (0x1234, .lower) }
      (withWork (.draining .apply) (withQueue [.write { dwrite with lanes := .lower }] (part .running))))
      (fun t => decide (t.mem.byte 0xC00 = (part .running).mem.byte 0xC00 ∧ t.mem.byte 0xC01 = 0x34)) =
      true ∧
    after (.accessComplete (some 0x5678)) (withAccess .engine { addr := 0x600, write := some (0x1234, .lower) }
      (withWork (.draining .apply) (withQueue [.write { dwrite with lanes := .lower }] (part .running))))
      (fun t => decide (t.mem.byte 0xC00 = 0x56 ∧ t.mem.byte 0xC01 = 0x78)) = true ∧
    (part .running).MemoryCanonical := by decide

/-- Words of the frames of 10.7, a FORMAT frame, and bytes that are no command or not yet one. -/
theorem test_frame_bytes_give_commands :
    frameCommand [0x02#8] = some .commit ∧ frameCommand [0x04#8] = some .thaw ∧
    frameCommand [0x07#8, 0x02#8, 0x00#8] = none ∧
    frameCommand [0x07#8, 0x02#8, 0x00#8, 0x80#8] = some (.set 0x02#8 128) ∧
    frameCommand [0x07#8, 0x0C#8, 0x01#8, 0x02#8] = some (.setAutoCommitInterval 0x0102#16) ∧
    frameCommand [0x06#8, 0x01#8, 0x02#8, 0x30#8, 0x00#8, 0x10#8] = some (.format 0x010230#24 16) ∧
    frameCommand [0x00#8] = some (.unknownCommand 0) ∧ frameCommand [0x0E#8, 0x00#8] = none ∧
    (Instr.format 0x010230#24 16).frameBytes = [0x06#8, 0x01#8, 0x02#8, 0x30#8] ++ [0x00#8, 0x10#8] ∧
    (Instr.unknownCommand 0x0E#8).wellFormed = true ∧ (Instr.set 0x02#8 128).wellFormed = true ∧
    Instr.isLinkCommand .status = true := by decide

/-- SDO before the taking, at its result, in a response, behind it, and outside a frame and after a reset. -/
theorem test_sdo :
    (part .running).sdo 0 = some 0 ∧ State.reset.sdo 0 = none ∧
    after (.get 0x02#8) (part .running) (fun t =>
      decide ([0, 1, 2, 3, 4, 5, 6].map t.sdo =
        [some 0, some 0, some 0, some 1, some 0, some 64, some 0xFF])) = true ∧
    after (.reset 0 false) (part .running) (fun t => decide (t.sdo 3 = none)) = true := by decide

/-! ### Commits, tables, freezes and clears -/

/-- The group numbers at the limit, and a dirty group. -/
def dirtyGroup (g : GroupNo) : State :=
  (part .running).setIntake { (part .running).intake with group := g, dirty := true }

theorem test_hyp_commit :
    (dirtyGroup 0xFFFFFFFE#32).commitStep = .token ∧
    (dirtyGroup 0xFFFFFFFF#32).commitStep = .refusedBy .notPermitted ∧
    (part .running).commitStep = .nothing ∧
    ((dirtyGroup 5).setIntake { (dirtyGroup 5).intake with pendingCommit := true }).commitStep =
      .merged ∧
    (withQueue (List.replicate 16 (.write dwrite)) (dirtyGroup 5)).commitStep = .held ∧
    (withWork (.rollingBack (rolling (.readSlot 0 5 []))) (dirtyGroup 0xFFFFFFFE#32)).commitStep =
      .token ∧
    (dirtyGroup 5).link.frame = some { taken := none } := by decide

theorem test_hyp_load_table :
    (0x3000#24).zeroExtend 32 = 0x3000#32 ∧ (0x3000#32).toNat % 8 = 0 ∧
    (part .running).gate.causes.anchor = false ∧ (part .running).region.state = .none ∧
    after (.loadTable 0x3000#24) (part .running) (fun t => decide (t.frameResult = some .done)) = true ∧
    after (.loadTable 0x3FFDF#24) (part .running) (fun t => decide (t.frameResult = some .badReq)) =
      true ∧
    after (.loadTable 0x3FFD8#24) (part .running) (fun t => decide (t.frameResult = some .done)) = true ∧
    after (.loadTable 0x3FFE0#24) (part .running) (fun t => decide (t.frameResult = some .badReq)) =
      true ∧
    after (.loadTable 0x1100#24) (part .running) (fun t => decide (t.frameResult = some .done)) = true ∧
    after (.loadTable 0x10F8#24) (part .running) (fun t => decide (t.frameResult = some .badReq)) =
      true ∧
    after (.loadTable 0x3000#24) (part .unformatted)
      (fun t => decide (t.frameResult = some .unformatted)) = true := by decide

theorem test_hyp_triggers :
    (part .frozen).gate.level.strength < Action.strength .sealGroup ∧
    Action.strength .none ≤ (part .frozen).gate.level.strength ∧
    (part .running).gate.opState = .running ∧ (part .unformatted).gate.opState ≠ .running ∧
    (part .unformatted).gate.opState ≠ .frozen ∧ (waiting .running 0x100#21 .journaled).up.cycle.isSome =
      true ∧ (part .running).gate.causes.anchor = false ∧
    after (.freeze 2) (waiting .running 0x100#21 .journaled) (fun t => t.up.uberr) = true := by decide

/-- Entries that a STOP order parts: a begun head, a SEAL token and a write behind it. -/
theorem test_hyp_stops :
    (withQueue ([.write jwrite] ++ [.sealToken 1 none] ++ [.write jwrite, .write dwrite])
      (withWork (.draining .apply) (part .frozen))).headBegun = true ∧
    [Entry.write jwrite, .write dwrite].all (fun e => !e.isSeal) = true ∧
    after .rollback (withQueue [.sealToken 1 none, .write jwrite, .write dwrite] (part .frozen))
      (fun t => decide (t.queue.entries = [.sealToken 1 none, .write dwrite]) &&
        decide (t.queue.discardedWrites = 1)) = true := by decide

theorem test_hyp_gate_commands :
    (part .frozen).gate.order = none ∧ (part .frozen).rollingBack = false ∧
    (part .unformatted).gate.opState = .unformatted ∧ 3 < (4#8).toNat ∧
    (rollingPart (.readSlot 0 5 [])).rollingBack = true ∧ (part .running).gate.opState ≠ .frozen ∧
    after (.freeze 0) (part .recovering) (fun t => decide (t.frameResult = some .busy)) = true ∧
    after (.freeze 3) (part .running) (fun t => decide (t.gate.order = some .soft)) = true ∧
    after (.freeze 4) (part .running) (fun t => decide (t.frameResult = some .badReq)) = true ∧
    after .rollback (part .running) (fun t => decide (t.frameResult = some .notFrozen)) = true ∧
    after .rollback (part .frozen) (fun t => decide (t.gate.order = some .command)) = true ∧
    after .rollback (rollingPart (.readSlot 0 5 [])) (fun t => decide (t.frameResult = some .busy)) =
      true ∧
    after (.freeze 3) (rollingPart (.readSlot 0 5 [])) (fun t => decide (t.gate.order = none)) = true :=
  by decide

/-- FROZEN with a cause and the last sample of PFAIL. -/
def frozenBy (c : CauseSet) (low : Bool) : State :=
  (part .frozen).setGate { (part .frozen).gate with
    causes := c, pfail := { resetInput with last := some (!low) } }

/-- Each row of THAW. -/
theorem test_hyp_thaw_rows :
    after .thaw (part .recovering) (fun t => decide (t.frameResult = some .busy)) = true ∧
    after .thaw (part .running) (fun t => decide (t.frameResult = some .notFrozen)) = true ∧
    after .thaw (rollingPart (.readSlot 0 5 [])) (fun t => decide (t.frameResult = some .busy)) = true ∧
    after .thaw (frozenBy { noCauses with anchor := true, table := true } false)
      (fun t => decide (t.frameResult = some .notPermitted)) = true ∧
    after .thaw (frozenBy { noCauses with table := true, pfail := true } true)
      (fun t => decide (t.frameResult = some .noTable)) = true ∧
    after .thaw (frozenBy { noCauses with pfail := true } true)
      (fun t => decide (t.frameResult = some .triggerActive)) = true ∧
    after .thaw (frozenBy { noCauses with pfail := true } false)
      (fun t => decide (t.frameResult = some .done)) = true ∧
    after .thaw ((part .frozen).setEngine { (part .frozen).engine with abandoned := some 1 })
      (fun t => decide (t.frameResult = some .openGroup)) = true := by decide

/-- Each row of FORMAT, with the window at the ends of its range. -/
theorem test_hyp_format_rows :
    after (.format 0x1000#24 16) (part .running)
      (fun t => decide (t.frameResult = some .notPermitted)) = true ∧
    after (.format 0x1000#24 15) (part .unformatted)
      (fun t => decide (t.frameResult = some .badReq)) = true ∧
    after (.format 0x3FEE0#24 16) (part .unformatted)
      (fun t => decide (t.frameResult = some .done) && decide (t.gate.opState = .formatting)) = true ∧
    after (.format 0x3FEF0#24 16) (part .unformatted)
      (fun t => decide (t.frameResult = some .badReq)) = true ∧
    after (.format 0x1000#24 16) (withQueue [.write dwrite] (part .unformatted))
      (fun t => decide (t.frameResult = some .busy)) = true ∧
    after (.format 0x1000#24 16) State.reset (fun t => decide (t.link = State.reset.link)) = true := by
  decide

/-- PULSE mode with FROZE and REFUSED enabled. -/
def pulsing (o : OpState) : State :=
  (part o).setSettings { (part o).settings with attnMode := .pulse, enables := 0x24 }

/-- An enabled flag that was clear times a pulse, also during one; a flag that is set, or not enabled, does not
(R180 case 1). -/
theorem test_hyp_pulse_requests :
    (pulsing .running).flagged .froze = false ∧
    (pulsing .running).settings.enables.getLsbD Event.froze.bit = true ∧
    after (.freeze 0) (pulsing .running) (fun t => t.flagged .froze && t.events.attn &&
      decide (t.events.pulse = some 4) && decide (t.settings = (pulsing .running).settings)) = true ∧
    after (.freeze 0) ((pulsing .running).setEvents
      { (pulsing .running).events with attn := true, pulse := some 1 })
      (fun t => t.events.attn && decide (t.events.pulse = some 4)) = true ∧
    after (.freeze 0) ((pulsing .running).setEvents { (pulsing .running).events with flags := 4 })
      (fun t => !t.events.attn && decide (t.events.pulse = none)) = true ∧
    after (.freeze 0) ((pulsing .running).setSettings
      { (pulsing .running).settings with enables := 0x20 })
      (fun t => t.flagged .froze && !t.events.attn && decide (t.events.pulse = none)) = true := by decide

/-- A request during a pulse ends it one width later, also with a shorter width (R180, log 40). -/
theorem test_shortened_pulse :
    let s := (part .running).setSettings
      { (part .running).settings with attnMode := .pulse, attnWidth := 1, enables := 3 }
    after (.clearEvents 1) (s.setEvents { s.events with flags := 3, attn := true, pulse := some 6 })
      (fun t => t.events.attn && decide (t.events.pulse = some 1)) = true := by decide

/-- Counts at their limit, the line of an address at both ends, and the lanes of each pair of strobes. -/
theorem test_counts_lines_lanes :
    satInc 0xFFFE#16 = 0xFFFF#16 ∧ satInc 0xFFFF#16 = 0xFFFF#16 ∧ satAdd 0xFFF0#16 15 = 0xFFFF#16 ∧
    satAdd 0xFFF0#16 16 = 0xFFFF#16 ∧ lineOf 0x100#21 = 0x100#21 ∧ lineOf 0x107#21 = 0x100#21 ∧
    lineOf 0x108#21 = 0x108#21 ∧ lanesOf true false = some .upper ∧
    lanesOf false true = some .lower ∧ lanesOf true true = some .both := by decide

theorem test_hyp_clears :
    (part .running).gate.opState ≠ .recovering ∧ (part .running).gate.opState ≠ .formatting ∧
    3 < (4#8).toNat ∧ (3#8).toNat = (3 : Fin 4).val ∧ (part .running).settings.attnMode = .level ∧
    (part .formatting).gate.opState = .formatting ∧
    ((part .running).setSettings { (part .running).settings with attnMode := .pulse }).settings.attnMode =
      .pulse := by decide

end Sys2Proof.Tests
end

section
/-! PROOFS. The class of an anchor position as it is read (R11), and what the two classes decide (R14). -/

namespace Sys2Proof.Machine

/-! ### A structure of words as read (R6) -/

theorem checkOk_iff (ws : List Word) : checkOk ws = true ↔ wordSum ws = 0xFFFF#16 := by
  simp [checkOk]

theorem allZero_iff (ws : List Word) : allZero ws = true ↔ ∀ w ∈ ws, w = 0 := by
  simp [allZero]

theorem anchorIntact_iff (ws : List Word) :
    anchorIntact ws = true ↔ ws.getD 0 0 = 0x5A32#16 ∧ wordSum ws = 0xFFFF#16 := by
  simp [anchorIntact, checkOk_iff, wordAt_getD, Config.anchorKind]

/-! ### The class of a position (R11) -/

theorem windowIllegal_iff (base : Long) (slots : Word) (anchor0 : Nat) :
    windowIllegal base slots anchor0 = true ↔
      base.toNat % 16 ≠ 0 ∨ slots.toNat < 16 ∨ anchor0 ≤ base.toNat + 16 * slots.toNat - 1 := by
  simp only [windowIllegal, Bool.or_eq_true, decide_eq_true_eq, or_assoc]

/-- The items of R11 in its order; item 5 gives two of them. -/
theorem anchorDamaged_iff (m : BitVec 2) (anchor0 pos : Nat) (a : Anchor) :
    anchorDamaged m anchor0 pos a = true ↔
      a.index.toNat ≠ pos ∨ a.group.toNat % 2 ≠ pos ∨ a.msize.toNat ≠ m.toNat ∨
      (a.outcome ≠ 1 ∧ a.outcome ≠ 2 ∧ a.outcome ≠ 3) ∨
      (a.outcome = 1 ∧ a.group ≠ 0) ∨ (a.group = 0 ∧ a.outcome ≠ 1) ∨
      a.group = 0xFFFFFFFF#32 ∨
      (a.windowBase.toNat % 16 ≠ 0 ∨ a.slotCount.toNat < 16 ∨
        anchor0 ≤ a.windowBase.toNat + 16 * a.slotCount.toNat - 1) ∨
      16 < a.tableCount.toNat ∨ a.slotCount.toNat < a.records.toNat := by
  simp only [anchorDamaged, Bool.or_eq_true, decide_eq_true_eq, windowIllegal_iff, not_or, or_assoc]
  simp only [Config.usedUpGroup, ne_eq]

theorem classifyAnchor_of_intact {ws : List Word} (h : anchorIntact ws = true)
    (m : BitVec 2) (anchor0 pos : Nat) :
    classifyAnchor m anchor0 pos ws =
      if anchorDamaged m anchor0 pos (anchorOf ws) then .damaged else .valid := by
  simp only [classifyAnchor, if_pos h]

theorem classifyAnchor_of_not_intact {ws : List Word} (h : ¬ anchorIntact ws = true)
    (m : BitVec 2) (anchor0 pos : Nat) :
    classifyAnchor m anchor0 pos ws = if ∀ w ∈ ws, w = 0 then .empty else .torn := by
  simp only [classifyAnchor, if_neg h, allZero_iff]

theorem classifyAnchor_eq_damaged_iff {ws : List Word} (h : anchorIntact ws = true)
    (m : BitVec 2) (anchor0 pos : Nat) :
    classifyAnchor m anchor0 pos ws = .damaged ↔
      anchorDamaged m anchor0 pos (anchorOf ws) = true := by
  rw [classifyAnchor_of_intact h]
  split <;> simp [*]

theorem classifyAnchor_damaged_or_valid {ws : List Word} (h : anchorIntact ws = true)
    (m : BitVec 2) (anchor0 pos : Nat) :
    classifyAnchor m anchor0 pos ws = .damaged ∨ classifyAnchor m anchor0 pos ws = .valid := by
  rw [classifyAnchor_of_intact h]
  split
  · exact .inl rfl
  · exact .inr rfl

/-! ### What the two classes decide (R14) -/

@[simp] theorem decideAnchors_damaged_left (c : AnchorClass) (a0 a1 : Anchor) :
    decideAnchors .damaged c a0 a1 = .damage := rfl

@[simp] theorem decideAnchors_damaged_right (c : AnchorClass) (a0 a1 : Anchor) :
    decideAnchors c .damaged a0 a1 = .damage := by
  cases c <;> rfl

/-- A TORN position is passed over: a VALID anchor 0 is current. -/
@[simp] theorem decideAnchors_valid_torn (a0 a1 : Anchor) :
    decideAnchors .valid .torn a0 a1 = .current 0 a0 := rfl

/-- A TORN position is passed over: a VALID anchor 1 is current. -/
@[simp] theorem decideAnchors_torn_valid (a0 a1 : Anchor) :
    decideAnchors .torn .valid a0 a1 = .current 1 a1 := rfl

@[simp] theorem decideAnchors_torn_torn (a0 a1 : Anchor) :
    decideAnchors .torn .torn a0 a1 = .unformatted := rfl

/-- Settles O45: a position that is valid by R6 is DAMAGED by the items of R11 and otherwise VALID, any other
is EMPTY or TORN, and `decideAnchors` reads the two classes by the rows of R14. -/
theorem anchorClasses : Obligations.AnchorClasses := by
  refine ⟨?position, ?decision⟩
  case position =>
    rintro m anchor0 pos ws a rfl
    rw [← anchorIntact_iff]
    refine ⟨fun intact => ⟨?_, classifyAnchor_damaged_or_valid intact m anchor0 pos⟩,
      fun broken => classifyAnchor_of_not_intact broken m anchor0 pos⟩
    rw [classifyAnchor_eq_damaged_iff intact, anchorDamaged_iff]
  case decision =>
    intro c a0 a1
    exact ⟨decideAnchors_damaged_left c a0 a1, decideAnchors_damaged_right c a0 a1,
      decideAnchors_valid_torn a0 a1, decideAnchors_torn_valid a0 a1, decideAnchors_torn_torn a0 a1⟩

end Sys2Proof.Machine
end

section
/-! PROOFS. What a trigger makes of the Gate Controller (R109, R112), and the rows of FREEZE and ROLLBACK
(R118, R119). -/

namespace Sys2Proof.Machine

/-! ### Rollback orders (R112, R123) -/

/-- An order is held, or a live rollback runs: no second order is placed (R123). -/
abbrev State.OrderStands (s : State) : Prop := s.gate.order ≠ none ∨ s.rollingBack = true

theorem orderStands_iff (s : State) :
    s.OrderStands ↔ (s.gate.order.isSome || s.rollingBack) = true := by
  simp [Option.isSome_iff_ne_none]

theorem not_orderStands {s : State} (hnone : s.gate.order = none) (hidle : s.rollingBack = false) :
    ¬ s.OrderStands := by
  simp [hnone, hidle]

theorem orderStands_congr {s t : State} (horder : t.gate.order = s.gate.order)
    (hwork : t.engine.work = s.engine.work) : t.OrderStands ↔ s.OrderStands := by
  simp only [State.OrderStands, State.rollingBack, horder, hwork]

@[simp] theorem rollingBack_stopOrder (s : State) : (stopOrder s).rollingBack = s.rollingBack := by
  simp only [State.rollingBack, (stopOrder_engine s).1]

theorem placeOrder_of_not_stands {s : State} (h : ¬ s.OrderStands) (o : Origin) :
    placeOrder o s = s.setGate { s.gate with order := some o } :=
  if_neg (mt (orderStands_iff s).2 h)

/-! ### The gate under a trigger (R109) -/

theorem addCause_gate (c : Cause) (s : State) :
    (addCause c s).gate = { s.gate with causes := s.gate.causes.add c } := rfl

theorem setLevel_gate (a : Action) (s : State) :
    (setLevel a s).gate = { s.gate with level := a } := rfl

theorem closeGate_gate (s : State) :
    (closeGate s).gate = { s.gate with opState := .frozen, frz := true, ready := true } := by
  simp [closeGate, setOpState]

/-- Behind the closing, an action touches nothing of the gate but the order that ROLLBACK places. -/
theorem actStopped_gate (cause : Cause) (a : Action) (s : State) :
    (actStopped cause a s).gate = { s.gate with
      order := if a = .rollback ∧ ¬ s.OrderStands then some cause.origin else s.gate.order } := by
  cases a with
  | none | sealGroup => rfl
  | stop => simp [actStopped]
  | rollback => by_cases h : s.OrderStands <;> simp [actStopped, placeOrder_gate, h]

/-- A trigger's action is taken: any action in RUNNING, in FROZEN one stronger than the level (R109). -/
def State.TakesAction (s : State) (a : Action) : Prop :=
  s.gate.opState = .running ∨ (s.gate.opState = .frozen ∧ s.gate.level.strength < a.strength)

theorem trigger_of_running {s : State} (h : s.gate.opState = .running) (cause : Cause) (a : Action) :
    trigger cause a s =
      setLevel a (actStopped cause a (closeGate (actOpen a (addCause cause s)))) := by
  simp only [trigger, h]

theorem trigger_of_stronger {s : State} (h : s.gate.opState = .frozen) (cause : Cause) {a : Action}
    (stronger : s.gate.level.strength < a.strength) :
    trigger cause a s = setLevel a (actStopped cause a (actOpen a (addCause cause s))) := by
  simp only [trigger, h, addCause_gate, if_pos stronger]

theorem trigger_of_not_stronger {s : State} (h : s.gate.opState = .frozen) (cause : Cause) {a : Action}
    (weaker : ¬ s.gate.level.strength < a.strength) : trigger cause a s = addCause cause s := by
  simp only [trigger, h, addCause_gate, if_neg weaker]

/-- Where its action is taken, a trigger acts on a state `x` with the gate closed and the cause added; the
level and what the action does behind the closing are still to come. -/
theorem trigger_of_takesAction {s : State} {a : Action} (h : s.TakesAction a) (cause : Cause) :
    ∃ x : State, trigger cause a s = setLevel a (actStopped cause a x) ∧
      x.gate.opState = .frozen ∧ x.gate.causes = s.gate.causes.add cause ∧
      x.gate.order = s.gate.order ∧ (x.OrderStands ↔ s.OrderStands) := by
  obtain running | ⟨frozen, stronger⟩ := h
  · refine ⟨_, trigger_of_running running cause a, ?_, ?_, ?_, orderStands_congr ?_ ?_⟩ <;>
      simp [closeGate_gate, addCause_gate]
  · refine ⟨_, trigger_of_stronger frozen cause stronger, ?_, ?_, ?_, orderStands_congr ?_ ?_⟩ <;>
      simp [addCause_gate, frozen]

/-- A trigger that the Gate Controller takes leaves the gate closed with the cause added, and an order that
stands as it is (R109, R123). -/
theorem trigger_gate {s : State} (h : s.gate.opState = .running ∨ s.gate.opState = .frozen)
    (cause : Cause) (a : Action) :
    (trigger cause a s).gate.opState = .frozen ∧
    (trigger cause a s).gate.causes = s.gate.causes.add cause ∧
    (s.OrderStands → (trigger cause a s).gate.order = s.gate.order) := by
  by_cases takes : s.TakesAction a
  · obtain ⟨x, htrigger, hfrozen, hcauses, horder, hstands⟩ := trigger_of_takesAction takes cause
    rw [htrigger, setLevel_gate, actStopped_gate]
    exact ⟨hfrozen, hcauses, fun stands =>
      (if_neg fun placed => placed.2 (hstands.2 stands)).trans horder⟩
  · have frozen : s.gate.opState = .frozen := h.resolve_left fun running => takes (.inl running)
    have weaker : ¬ s.gate.level.strength < a.strength := fun lt => takes (.inr ⟨frozen, lt⟩)
    rw [trigger_of_not_stronger frozen cause weaker, addCause_gate]
    exact ⟨frozen, rfl, fun _ => rfl⟩

/-- Action ROLLBACK places an order with its cause's origin where none stands (R112, R123). -/
theorem trigger_rollback_order {s : State} (takes : s.TakesAction .rollback) (cause : Cause)
    (free : ¬ s.OrderStands) :
    (trigger cause .rollback s).gate.order = some cause.origin := by
  obtain ⟨x, htrigger, -, -, -, hstands⟩ := trigger_of_takesAction takes cause
  rw [htrigger, setLevel_gate, actStopped_gate]
  exact if_pos ⟨rfl, mt hstands.1 free⟩

theorem Action.strength_lt_rollback {a : Action} (h : a ≠ .rollback) :
    a.strength < Action.rollback.strength := by
  cases a with
  | none | sealGroup | stop => decide
  | rollback => exact absurd rfl h

theorem takesAction_rollback {s : State} (h : s.gate.opState = .running ∨ s.gate.opState = .frozen)
    (hlevel : s.gate.opState = .running ∨ s.gate.level ≠ .rollback) : s.TakesAction .rollback :=
  h.elim .inl fun frozen =>
    hlevel.imp_right fun lower => ⟨frozen, Action.strength_lt_rollback lower⟩

/-! ### The taking of a command that gives no response -/

theorem takeCommand_plain {s t : State} (h : s.link.frame = some { taken := none }) {n : Nat}
    {owner : State → Answer} {r : Result} (howner : owner s = plain r t) :
    takeCommand n owner s = t.answered n r [] := by
  rw [takeCommand_taken h, howner]
  rfl

/-! ### FREEZE (R118) -/

theorem actionOf_of_above {n : Nat} (h : 3 < n) : actionOf n = none := by
  obtain ⟨k, rfl⟩ := Nat.exists_eq_add_of_le' h
  rfl

theorem exec_freeze_of_answer {s t : State} (h : s.link.frame = some { taken := none }) {b : Byte}
    {r : Result} (hanswer : unlessBusy (answerFreeze b) s = plain r t) :
    exec (.freeze b) s = .next (t.answered 1 r []) :=
  congrArg Host.Outcome.next (takeCommand_plain h hanswer)

theorem answerFreeze_unformatted {s : State} (h : s.gate.opState = .unformatted) (b : Byte) :
    answerFreeze b s = plain .busy s :=
  if_pos h

section
variable {s : State} (h : s.gate.opState = .running ∨ s.gate.opState = .frozen) {b : Byte}
include h

theorem unlessBusy_of_gate (owner : State → Answer) : unlessBusy owner s = owner s := by
  obtain h | h := h <;> exact unlessBusy_free (by simp [h]) (by simp [h]) owner

theorem answerFreeze_unknown (hb : actionOf b.toNat = none) : answerFreeze b s = plain .badReq s := by
  obtain h | h := h <;> simp [answerFreeze, h, hb]

theorem answerFreeze_trigger {a : Action} (hb : actionOf b.toNat = some a) :
    answerFreeze b s = plain .done (trigger .soft a s) := by
  obtain h | h := h <;> simp [answerFreeze, h, hb]

end

theorem exec_freeze_busy {s : State} (hframe : s.link.frame = some { taken := none })
    (h : s.gate.opState = .recovering ∨ s.gate.opState = .formatting ∨ s.gate.opState = .unformatted)
    (b : Byte) : exec (.freeze b) s = .next (s.answered 1 .busy []) := by
  refine exec_freeze_of_answer hframe ?_
  obtain h | h | h := h
  · exact unlessBusy_busy (.inl h) _
  · exact unlessBusy_busy (.inr h) _
  · rw [unlessBusy_free (by simp [h]) (by simp [h]), answerFreeze_unformatted h]

theorem exec_freeze_badReq {s : State} (hframe : s.link.frame = some { taken := none })
    (h : s.gate.opState = .running ∨ s.gate.opState = .frozen) {b : Byte} (hb : 3 < b.toNat) :
    exec (.freeze b) s = .next (s.answered 1 .badReq []) :=
  exec_freeze_of_answer hframe <| by
    rw [unlessBusy_of_gate h, answerFreeze_unknown h (actionOf_of_above hb)]

theorem exec_freeze_trigger {s : State} (hframe : s.link.frame = some { taken := none })
    (h : s.gate.opState = .running ∨ s.gate.opState = .frozen) {b : Byte} {a : Action}
    (hb : actionOf b.toNat = some a) :
    exec (.freeze b) s = .next ((trigger .soft a s).answered 1 .done []) :=
  exec_freeze_of_answer hframe <| by rw [unlessBusy_of_gate h, answerFreeze_trigger h hb]

/-! ### ROLLBACK (R119) -/

/-- The state in which ROLLBACK leaves the part: stopped, with an order of origin COMMAND and the level at
ROLLBACK. -/
def rollbackOrdered (s : State) : State :=
  (stopOrder s).setGate { s.gate with order := some .command, level := .rollback }

theorem stops_rollbackOrdered (s : State) : s.Stops (rollbackOrdered s) :=
  stops_congr rfl rfl rfl rfl rfl rfl (stopOrder_spec s)

theorem exec_rollback_of_answer {s t : State} (h : s.link.frame = some { taken := none })
    {r : Result} (hanswer : unlessBusy answerRollback s = plain r t) :
    exec .rollback s = .next (t.answered 0 r []) :=
  congrArg Host.Outcome.next (takeCommand_plain h hanswer)

theorem answerRollback_notFrozen {s : State} (h : s.gate.opState ≠ .frozen) :
    answerRollback s = plain .notFrozen s :=
  if_pos h

theorem answerRollback_stands {s : State} (h : s.gate.opState = .frozen) (stands : s.OrderStands) :
    answerRollback s = plain .busy s := by
  rw [answerRollback, if_neg (not_not_intro h), if_pos ((orderStands_iff s).1 stands)]

theorem answerRollback_free {s : State} (h : s.gate.opState = .frozen) (free : ¬ s.OrderStands) :
    answerRollback s = plain .done (rollbackOrdered s) := by
  have hstop : ¬ (stopOrder s).OrderStands :=
    mt (orderStands_congr (by simp) (stopOrder_engine s).1).1 free
  rw [answerRollback, if_neg (not_not_intro h), if_neg (mt (orderStands_iff s).2 free),
    placeOrder_of_not_stands hstop]
  rfl

/-- Settles O57: each row of R118 and R119 is the answer of its owner, and what FREEZE does to the gate is
what any trigger does (`trigger_gate`, `trigger_rollback_order`). -/
theorem gateCommands : Obligations.GateCommands := by
  intro s hframe
  refine ⟨fun b => ⟨fun busy => exec_freeze_busy hframe busy b, fun gate =>
    ⟨fun above => exec_freeze_badReq hframe gate above, fun a code => ?freeze⟩⟩,
    ?busy, ?notFrozen, ?stands, ?ordered⟩
  case freeze =>
    have hb : actionOf b.toNat = some a := by
      obtain ⟨rfl, rfl⟩ | ⟨rfl, rfl⟩ | ⟨rfl, rfl⟩ | ⟨rfl, rfl⟩ := code <;> rfl
    obtain ⟨frozen, causes, kept⟩ := trigger_gate gate .soft a
    refine ⟨_, rfl, exec_freeze_trigger hframe gate hb, frozen, causes, kept, ?_⟩
    rintro rfl level none_held idle
    exact trigger_rollback_order (takesAction_rollback gate level) .soft
      (not_orderStands none_held idle)
  case busy =>
    exact fun busy => exec_rollback_of_answer hframe (unlessBusy_busy busy _)
  case notFrozen =>
    intro h
    refine exec_rollback_of_answer hframe ?_
    obtain h | h := h <;>
      rw [unlessBusy_free (by simp [h]) (by simp [h]), answerRollback_notFrozen (by simp [h])]
  case stands =>
    intro frozen stands
    refine exec_rollback_of_answer hframe ?_
    rw [unlessBusy_of_gate (.inr frozen), answerRollback_stands frozen stands]
  case ordered =>
    intro frozen none_held idle
    have free : ¬ s.OrderStands := not_orderStands none_held idle
    refine ⟨rollbackOrdered s, exec_rollback_of_answer hframe ?_, stops_rollbackOrdered s, rfl, rfl⟩
    rw [unlessBusy_of_gate (.inr frozen), answerRollback_free frozen free]

end Sys2Proof.Machine
end

section
/-! PROOFS. What a step is, what the commands of the control link can do, and the induction that carries an
invariant over every step. -/

namespace Sys2Proof.Machine

/-! ### A step (00) -/

theorem step_of_pending {s : State} {c : Instr} {q : List Instr} (h : s.pending = c :: q) :
    step s = exec c (s.setPending q) := by
  simp [step, h]

theorem step_of_idle {s : State} (h : s.pending = []) : step s = .next (idle s) := by
  simp [step, h]

/-- Settles O1: `step` matches on the queue of commands. -/
theorem stepTakesFront : Obligations.StepTakesFront :=
  fun _ _ _ => step_of_pending

/-! ### The induction over the steps -/

theorem clockPeriod_cases (s : State) :
    clockPeriod s = s.setTime { s.time with clk := s.time.clk + 1 } ∨
    clockPeriod s = nextMicrosecond s := by
  unfold clockPeriod
  split
  · exact .inl rfl
  · exact .inr rfl

/-- While no command waits the part draws a free value, puts a command in its queue or lets its Timebase go
on. -/
theorem idle_keeps {P : State → Prop} (draw : ∀ s n q, P s → P ((s.setFree n).setPending q))
    (time : ∀ s x, P s → P (s.setTime x)) (micro : ∀ s, P s → P (nextMicrosecond s)) {s : State}
    (hs : P s) : P (idle s) := by
  have period : ∀ s, P s → P (clockPeriod s) := by
    intro s hs
    obtain h | h := clockPeriod_cases s <;> rw [h]
    · exact time s _ hs
    · exact micro s hs
  by_cases acts : s.dueActs = [] ∧ s.readyActs = []
  · rw [idle_nothing s acts.1 acts.2]
    exact period s hs
  · obtain ⟨i, -, h⟩ | ⟨-, h⟩ := idle_cases s (not_and_or.1 acts) <;> rw [h]
    · exact draw s (s.free + 1) [i] hs
    · exact period _ (draw s (s.free + 1) s.pending hs)

/-- What free values, the queue of commands, the Timebase and every command keep, every step keeps. -/
theorem step_keeps {P : State → Prop} (draw : ∀ s n q, P s → P ((s.setFree n).setPending q))
    (time : ∀ s x, P s → P (s.setTime x)) (micro : ∀ s, P s → P (nextMicrosecond s))
    (command : ∀ c s t, P s → exec c s = .next t → P t) {s t : State} (hs : P s)
    (h : step s = .next t) : P t := by
  cases hq : s.pending with
  | nil =>
    rw [step_of_idle hq, Host.Outcome.next.injEq] at h
    exact h ▸ idle_keeps draw time micro hs
  | cons c q =>
    rw [step_of_pending hq] at h
    exact command c _ t (draw s s.free q hs) h

/-! ### Commands taken in a frame (10.1) -/

/-- How a command of the control link is taken: its parameter bytes and what its owner answers. -/
def takingOf : Instr → Option (Nat × (State → Answer))
  | .status => some (0, fun s => { result := .done, response := s.statusBytes, state := s })
  | .commit => some (0, unlessBusy (behindClaim answerCommit))
  | .loadTable base => some (3, unlessBusy (behindClaim (answerLoadTable base)))
  | .thaw => some (0, unlessBusy answerThaw)
  | .rollback => some (0, unlessBusy answerRollback)
  | .format base slots => some (5, unlessBusy (answerFormat base slots))
  | .get id => some (1, answerGet id)
  | .clearEvents mask => some (2, unlessBusy fun s =>
      plain .done (s.setEvents (s.events.clear s.settings (mask.extractLsb' 0 13))))
  | .readReport id => some (1, answerReport id)
  | .clearWatch unit => some (1, unlessBusy (answerClearWatch unit))
  | .clearCounters => some (0, unlessBusy fun s =>
      plain .done (s.setEvents { s.events with counters := zeroCounters }))
  | .freeze action => some (1, unlessBusy (answerFreeze action))
  | .set id v => some (3, unlessBusy (answerSet id v))
  | .setClockRate v => some (3, unlessBusy (answerSet 0x01#8 v))
  | .setFaultPolarity v => some (3, unlessBusy (answerSet 0x05#8 v))
  | .setFreezeMask v => some (3, unlessBusy (answerSet 0x06#8 v))
  | .setFreezeScope v => some (3, unlessBusy (answerSet 0x0A#8 v))
  | .setAutoCommitInterval v => some (3, unlessBusy (answerSet 0x0C#8 v))
  | .setAttnMode v => some (3, unlessBusy (answerSet 0x0D#8 v))
  | .setEventEnables v => some (3, unlessBusy (answerSet 0x0F#8 v))
  | _ => none

theorem exec_of_taking {c : Instr} {n : Nat} {owner : State → Answer} (h : takingOf c = some (n, owner))
    (s : State) : exec c s = .next (takeCommand n owner s) := by
  cases c <;> cases h <;> rfl

theorem taking_of_isLinkCommand {c : Instr} (h : c.isLinkCommand = true) :
    ∃ n owner, takingOf c = some (n, owner) := by
  cases c <;> cases h <;> exact ⟨_, _, rfl⟩

/-! ### What an owner can do to the state -/

/-- The effects of the commands of the control link, each with the conditions under which it comes about. -/
inductive LinkEffect (c : Instr) (s : State) : State → Prop
  | nothing : LinkEffect c s s
  | commit : LinkEffect c s (takeCommit (claimFirst s))
  | loadTable (base : Long) (gate : s.gate.opState = .running ∨ s.gate.opState = .frozen)
      (space : (claimFirst s).hasSpace = true) :
      LinkEffect c s (appendEntry (.tableToken base)
        ((claimFirst s).setRegion { (claimFirst s).region with state := .pending base }))
  | thaw (row : s.thawResult = .done) :
      LinkEffect c s (setOpState .running (s.setGate { s.gate with causes := noCauses, level := .none }))
  | rollback (frozen : s.gate.opState = .frozen) :
      LinkEffect c s (setLevel .rollback (placeOrder .command (stopOrder s)))
  | freeze (a : Action) : LinkEffect c s (trigger .soft a s)
  | format (base : Long) (slots : Word) (permitted : s.formatPermitted = true)
      (free : s.formatBusy = false) : LinkEffect c s (beginFormat base slots s)
  | set (x : Setting) (v : Word) (accepted : x.accepts v = true) (new : x.read s ≠ v) :
      LinkEffect c s (settingEffect x s (x.store v s))
  | clearEvents (mask : Word) (command : c = .clearEvents mask) :
      LinkEffect c s (s.setEvents (s.events.clear s.settings (mask.extractLsb' 0 13)))
  | clearCounters : LinkEffect c s (s.setEvents { s.events with counters := zeroCounters })
  | clearWatch (n : Fin 4) :
      LinkEffect c s (s.setWatch (s.watch.put n { s.watch.get n with hits := 0, capture := none }))

theorem unlessBusy_cases (owner : State → Answer) (s : State) :
    ((s.gate.opState = .recovering ∨ s.gate.opState = .formatting) ∧
      unlessBusy owner s = plain .busy s) ∨
    (s.gate.opState ≠ .recovering ∧ s.gate.opState ≠ .formatting ∧ unlessBusy owner s = owner s) := by
  by_cases h : s.gate.opState = .recovering ∨ s.gate.opState = .formatting
  · exact .inl ⟨h, unlessBusy_busy h owner⟩
  · obtain ⟨h1, h2⟩ := not_or.1 h
    exact .inr ⟨h1, h2, unlessBusy_free h1 h2 owner⟩

theorem behindClaim_of_done {owner : State → Answer} {s : State}
    (h : (owner (claimFirst s)).result = .done) : behindClaim owner s = owner (claimFirst s) :=
  if_pos h

theorem behindClaim_of_not_done {owner : State → Answer} {s : State}
    (h : (owner (claimFirst s)).result ≠ .done) :
    behindClaim owner s = { owner (claimFirst s) with state := s } :=
  if_neg h

/-- An answer other than DONE leaves the state alone (R167). -/
def Answer.Settled (s : State) (a : Answer) : Prop := a.result = .done ∨ a.state = s

theorem settled_unlessBusy {owner : State → Answer} {s : State} (h : (owner s).Settled s) :
    (unlessBusy owner s).Settled s := by
  obtain ⟨-, e⟩ | ⟨-, -, e⟩ := unlessBusy_cases owner s <;> rw [e]
  · exact .inr rfl
  · exact h

theorem settled_behindClaim (owner : State → Answer) (s : State) :
    (behindClaim owner s).Settled s := by
  by_cases h : (owner (claimFirst s)).result = .done
  · rw [behindClaim_of_done h]
    exact .inl h
  · rw [behindClaim_of_not_done h]
    exact .inr rfl

theorem settled_plain_done (s t : State) : (plain .done t).Settled s := .inl rfl

theorem settled_plain_same (r : Result) (s : State) : (plain r s).Settled s := .inr rfl

/-- Every owner changes the state only with the answer DONE. -/
theorem settled_of_taking {c : Instr} {n : Nat} {owner : State → Answer}
    (h : takingOf c = some (n, owner)) (s : State) : (owner s).Settled s := by
  have set : ∀ id v, (unlessBusy (answerSet id v) s).Settled s := by
    refine fun id v => settled_unlessBusy ?_
    unfold answerSet
    split
    · exact settled_plain_same _ s
    · split
      · exact settled_plain_done s _
      · exact settled_plain_same _ s
  cases c with
  | status => cases h; exact .inl rfl
  | get id => cases h; unfold answerGet; split <;> exact .inr rfl
  | readReport id => cases h; unfold answerReport; split <;> exact .inr rfl
  | commit | loadTable base => cases h; exact settled_unlessBusy (settled_behindClaim _ s)
  | thaw =>
    cases h
    refine settled_unlessBusy ?_
    unfold answerThaw
    split
    · exact settled_plain_done s _
    · exact settled_plain_same _ s
  | rollback =>
    cases h
    refine settled_unlessBusy ?_
    unfold answerRollback
    split
    · exact settled_plain_same _ s
    · split
      · exact settled_plain_same _ s
      · exact settled_plain_done s _
  | freeze action =>
    cases h
    refine settled_unlessBusy ?_
    unfold answerFreeze
    split
    · exact settled_plain_same _ s
    · split
      · exact settled_plain_same _ s
      · exact settled_plain_done s _
  | format base slots =>
    cases h
    refine settled_unlessBusy ?_
    unfold answerFormat
    dsimp only
    split
    · exact settled_plain_same _ s
    · split
      · exact settled_plain_same _ s
      · split
        · exact settled_plain_same _ s
        · exact settled_plain_done s _
  | clearWatch unit =>
    cases h
    refine settled_unlessBusy ?_
    unfold answerClearWatch
    split
    · exact settled_plain_same _ s
    · exact settled_plain_done s _
  | clearEvents mask | clearCounters => cases h; exact settled_unlessBusy (settled_plain_done s _)
  | set id v => cases h; exact set id v
  | setClockRate v | setFreezeMask v | setFaultPolarity v | setFreezeScope v | setAutoCommitInterval v
  | setEventEnables v | setAttnMode v => cases h; exact set _ v
  | _ => cases h

/-! ### The effect of each answer -/

theorem effect_unlessBusy {c : Instr} {owner : State → Answer} {s : State}
    (h : s.gate.opState ≠ .recovering → s.gate.opState ≠ .formatting → LinkEffect c s (owner s).state) :
    LinkEffect c s (unlessBusy owner s).state := by
  obtain ⟨-, e⟩ | ⟨h1, h2, e⟩ := unlessBusy_cases owner s <;> rw [e]
  · exact .nothing
  · exact h h1 h2

theorem effect_behindClaim {c : Instr} {owner : State → Answer} {s : State}
    (h : (owner (claimFirst s)).result = .done → LinkEffect c s (owner (claimFirst s)).state) :
    LinkEffect c s (behindClaim owner s).state := by
  by_cases hd : (owner (claimFirst s)).result = .done
  · rw [behindClaim_of_done hd]
    exact h hd
  · rw [behindClaim_of_not_done hd]
    exact .nothing

theorem effect_answerSet (c : Instr) (id : Byte) (v : Word) (s : State) :
    LinkEffect c s (answerSet id v s).state := by
  unfold answerSet
  split
  · exact .nothing
  · next x _ =>
    split
    · next accepted =>
      by_cases same : x.read s = v
      · simpa [plain, applySetting, same] using LinkEffect.nothing (c := c)
      · simpa [plain, applySetting, same] using LinkEffect.set (c := c) x v accepted same
    · exact .nothing

/-- LOAD TABLE with the answer DONE is behind the checks of R88 and has a free entry. -/
theorem answerLoadTable_done {base : BitVec 24} {s : State}
    (h : (answerLoadTable base s).result = .done) :
    s.gate.opState ≠ .unformatted ∧ s.hasSpace = true ∧
    (answerLoadTable base s).state = appendEntry (.tableToken (base.zeroExtend 32))
      (s.setRegion { s.region with state := .pending (base.zeroExtend 32) }) := by
  unfold answerLoadTable at h ⊢
  dsimp only at h ⊢
  split at h
  · cases h
  · next formatted =>
    split at h
    · cases h
    · split at h
      · cases h
      · split at h
        · cases h
        all_goals
          split at h
          · next space => exact ⟨formatted, space.1, by simp [*, plain]⟩
          · cases h

theorem effect_loadTable (c : Instr) (base : BitVec 24) {s : State} (h1 : s.gate.opState ≠ .recovering)
    (h2 : s.gate.opState ≠ .formatting) :
    LinkEffect c s (behindClaim (answerLoadTable base) s).state := by
  refine effect_behindClaim fun hd => ?_
  obtain ⟨h3, space, e⟩ := answerLoadTable_done hd
  rw [e]
  refine .loadTable _ ?_ space
  rw [(claimFirst_keeps s).2.2.2.2.1] at h3
  cases h : s.gate.opState <;> simp_all

theorem effect_answerFormat (c : Instr) (base : BitVec 24) (slots : Word) (s : State) :
    LinkEffect c s (answerFormat base slots s).state := by
  unfold answerFormat
  dsimp only
  split
  · exact .nothing
  · next permitted =>
    split
    · exact .nothing
    · split
      · exact .nothing
      · next free => exact .format _ slots (by simpa using permitted) (by simpa using free)

/-- Every command of the control link has one of the effects. -/
theorem effect_of_taking {c : Instr} {n : Nat} {owner : State → Answer}
    (h : takingOf c = some (n, owner)) (s : State) : LinkEffect c s (owner s).state := by
  have set : ∀ id v, LinkEffect c s (unlessBusy (answerSet id v) s).state :=
    fun id v => effect_unlessBusy fun _ _ => effect_answerSet c id v s
  cases c with
  | status => cases h; exact .nothing
  | get id => cases h; unfold answerGet; split <;> exact .nothing
  | readReport id => cases h; unfold answerReport; split <;> exact .nothing
  | commit => cases h; exact effect_unlessBusy fun _ _ => effect_behindClaim fun _ => .commit
  | loadTable base => cases h; exact effect_unlessBusy fun h1 h2 => effect_loadTable _ base h1 h2
  | thaw =>
    cases h
    refine effect_unlessBusy fun _ _ => ?_
    unfold answerThaw
    split
    · next row => exact .thaw row
    · exact .nothing
  | rollback =>
    cases h
    refine effect_unlessBusy fun _ _ => ?_
    unfold answerRollback
    split
    · exact .nothing
    · next frozen =>
      split
      · exact .nothing
      · exact .rollback (by simpa using frozen)
  | freeze action =>
    cases h
    refine effect_unlessBusy fun _ _ => ?_
    unfold answerFreeze
    split
    · exact .nothing
    · split
      · exact .nothing
      · exact .freeze _
  | format base slots => cases h; exact effect_unlessBusy fun _ _ => effect_answerFormat _ base slots s
  | clearWatch unit =>
    cases h
    refine effect_unlessBusy fun _ _ => ?_
    unfold answerClearWatch
    split
    · exact .nothing
    · exact .clearWatch _
  | clearEvents mask => cases h; exact effect_unlessBusy fun _ _ => .clearEvents mask rfl
  | clearCounters => cases h; exact effect_unlessBusy fun _ _ => .clearCounters
  | set id v => cases h; exact set id v
  | setClockRate v | setFreezeMask v | setFaultPolarity v | setFreezeScope v | setAutoCommitInterval v
  | setEventEnables v | setAttnMode v => cases h; exact set _ v
  | _ => cases h

/-- A command of the control link does nothing outside a frame; in one it has its effect and leaves its answer
in the frame. -/
theorem takeCommand_cases (n : Nat) (owner : State → Answer) (s : State) :
    takeCommand n owner s = s ∨ ∃ l, takeCommand n owner s = (owner s).state.setLink l := by
  by_cases h : s.link.frame = some { taken := none }
  · exact .inr ⟨_, takeCommand_taken h n owner⟩
  · exact .inl (takeCommand_outside h n owner)

theorem exec_link_effect {c : Instr} {n : Nat} {owner : State → Answer} {s t : State}
    (h : takingOf c = some (n, owner)) (hexec : exec c s = .next t) :
    ∃ u l, LinkEffect c s u ∧ t = u.setLink l := by
  rw [exec_of_taking h, Host.Outcome.next.injEq] at hexec
  subst hexec
  obtain e | ⟨l, e⟩ := takeCommand_cases n owner s <;> rw [e]
  · exact ⟨s, s.link, .nothing, rfl⟩
  · exact ⟨_, l, effect_of_taking h s, rfl⟩

/-! ### What a command can do -/

/-- The effects of all commands, each with the conditions under which it comes about. -/
inductive Effect (c : Instr) (s : State) : State → Prop
  | nothing : Effect c s s
  | link {u : State} (l : Link) (effect : LinkEffect c s u) : Effect c s (u.setLink l)
  | reset (msize : BitVec 2) (maint : Bool) (command : c = .reset msize maint) :
      Effect c s (State.afterReset { msize := msize, maint := maint } s.link.csnLow s.memCut (s.free + 1)
        s.pending)
  | read (a : Addr) (free : s.up.cycle = none) : Effect c s (takeRead a s)
  | write (a : Addr) (data : Word) (lanes : Lanes) (free : s.up.cycle = none) :
      Effect c s (takeWrite a data lanes s)
  | noLanes (free : s.up.cycle = none) : Effect c s (openCycle s)
  | claim : Effect c s (claimFirst s)
  | pendingToken (held : s.intake.pendingCommit = true) (space : s.hasSpace = true)
      (work : (s.setIntake { s.intake with pendingCommit := false }).claimMakesToken = true) :
      Effect c s (makeToken (s.setIntake { s.intake with pendingCommit := false }))
  | pendingDropped (auto : AutoCommit) :
      Effect c s (s.setIntake { s.intake with pendingCommit := false, auto := auto })
  | expire {x : Cycle} (current : s.up.cycle = some x) : Effect c s (expireHold x s)
  | grant (free : s.port.access = none) : Effect c s (arbitrate (holdRead (startWork s)))
  | complete {o : Owner} {a : Access} (answer : Option Word) (command : c = .accessComplete answer)
      (access : s.port.access = some (o, a)) : Effect c s (completeAccess o a answer s)
  | takeHead : Effect c s (takeHead s)
  | begins : Effect c s (beginOrdered s)
  | sealEdge : Effect c s (takeCommit (claimFirst (storeSeal true s)))
  | samples (level : Option Bool) (pfail fault : InputState) :
      Effect c s ((s.setIntake { s.intake with sealSample := level }).setGate
        { s.gate with pfail := pfail, fault := fault })
  | lineTrigger (l : InputLine) (n : Nat) : Effect c s (lineTrigger l (activateLine l n s))
  | tick (auto : AutoCommit) (x : Timebase) :
      Effect c s ((s.setIntake { s.intake with auto := auto, interval := s.settings.autoInterval }).setTime
        x)
  | auto : Effect c s (takeAuto (claimFirst s))
  | pulseEnd (command : c = .attnPulseEnd) (timed : s.events.pulse ≠ none) :
      Effect c s (s.setEvents { s.events with attn := false, pulse := none })
  | chipSelect : Effect c s (s.setUp { s.up with uberr := false })

/-- A sample or event of one line leaves the other line and the level of SEAL as they are. -/
theorem effect_setInput (c : Instr) (l : InputLine) (x : InputState) (s : State) :
    Effect c s (setInput l x s) := by
  cases l
  · exact .samples s.intake.sealSample x s.gate.fault
  · exact .samples s.intake.sealSample s.gate.pfail x

theorem effect_sampleFresh (c : Instr) (l : InputLine) (high : Bool) (s : State) :
    Effect c s (sampleFresh l high s) := by
  unfold sampleFresh
  split <;> exact effect_setInput c l _ s

/-- Nothing but the level of SEAL and the two lines has been sampled. -/
def State.Samples (s t : State) : Prop :=
  ∃ level pfail fault, t = (s.setIntake { s.intake with sealSample := level }).setGate
    { s.gate with pfail := pfail, fault := fault }

theorem State.samples_refl (s : State) : s.Samples s :=
  ⟨s.intake.sealSample, s.gate.pfail, s.gate.fault, rfl⟩

theorem State.Samples.setInput {s t : State} (h : s.Samples t) (l : InputLine) (x : InputState) :
    s.Samples (setInput l x t) := by
  obtain ⟨level, p, f, rfl⟩ := h
  cases l
  · exact ⟨level, x, f, rfl⟩
  · exact ⟨level, p, x, rfl⟩

theorem State.Samples.sampleFresh_if {s t : State} (h : s.Samples t) (b : Bool) (l : InputLine)
    (high : Bool) : s.Samples (if b then sampleFresh l high t else t) := by
  unfold sampleFresh
  repeat' split
  · exact h.setInput l _
  · exact h.setInput l _
  · exact h

theorem effect_firstSample (c : Instr) (x pfail fault : Bool) (s t : State)
    (h : execFirstSample x pfail fault s = .next t) : Effect c s t := by
  have level : s.Samples (if s.intake.sealSample.isNone then storeSeal x s else s) := by
    split
    · exact ⟨some x, s.gate.pfail, s.gate.fault, rfl⟩
    · exact s.samples_refl
  have lines : s.Samples t := by
    cases h
    exact (level.sampleFresh_if _ .pfail pfail).sampleFresh_if _ .fault fault
  obtain ⟨level, p, f, rfl⟩ := lines
  exact .samples level p f

theorem effect_pendingCommitClaim (c : Instr) (s t : State)
    (h : execPendingCommitClaim s = .next t) : Effect c s t := by
  unfold execPendingCommitClaim at h
  dsimp only at h
  rw [Host.Outcome.next.injEq] at h
  subst h
  split
  · next held =>
    split
    · next work => exact .pendingToken held.1 held.2 work
    · exact .pendingDropped _
  · exact .nothing

/-- Every command has one of the effects. -/
theorem effect_of_exec {c : Instr} {s t : State} (h : exec c s = .next t) : Effect c s t := by
  cases hc : takingOf c with
  | some x =>
    obtain ⟨u, l, effect, rfl⟩ := exec_link_effect (owner := x.2) (n := x.1) hc h
    exact .link l effect
  | none =>
    cases c with
    | reset msize maint => cases h; exact .reset msize maint rfl
    | upstreamRead a =>
      simp only [exec, execUpstreamRead] at h
      split at h
      · cases h
      · next free => cases h; exact .read a (by simpa using free)
    | upstreamWrite a data upper lower =>
      simp only [exec, execUpstreamWrite] at h
      split at h
      · cases h
      · next free =>
        split at h <;> cases h
        · exact .noLanes (by simpa using free)
        · exact .write a data _ (by simpa using free)
    | waitingWriteClaim => cases h; exact .claim
    | pendingCommitClaim => exact effect_pendingCommitClaim _ s t h
    | waitLimitExpiry =>
      cases h
      split
      · next x current => exact .expire current
      · exact .nothing
    | arbiterGrant =>
      cases h
      split
      · exact .nothing
      · next free => exact .grant free
    | accessComplete answer =>
      cases h
      split
      · exact .nothing
      · next access => exact .complete answer rfl access
    | takeHead => cases h; exact .takeHead
    | liveRollbackBegin => cases h; exact .begins
    | sealEdge =>
      cases h
      split
      · exact .sealEdge
      · exact .nothing
      · exact .samples (some true) s.gate.pfail s.gate.fault
    | lineEvent l =>
      cases h
      split
      · exact .nothing
      · split
        · exact .nothing
        · dsimp only
          split
          · exact .lineTrigger l _
          · exact effect_setInput _ l _ s
    | lineRelease l => cases h; exact effect_sampleFresh _ l _ s
    | tick => cases h; exact .tick _ _
    | autoCommitExpiry =>
      cases h
      split
      · exact .auto
      · exact .nothing
    | attnPulseEnd =>
      cases h
      split
      · exact .nothing
      · next timed => exact .pulseEnd rfl (by simp [timed])
    | frameEnd bytes => cases h; exact .link _ .nothing
    | unknownCommand code =>
      cases h
      split
      · exact .nothing
      · obtain e | ⟨l, e⟩ := takeCommand_cases 0 (plain .badReq) s <;> rw [e]
        · exact .nothing
        · exact .link l .nothing
    | chipSelectRemoved => cases h; exact .chipSelect
    | frameStart => cases h; exact .link _ .nothing
    | lineRunBegin l =>
      cases h
      split
      · exact .nothing
      · exact effect_sampleFresh _ l _ s
    | sealNegated => cases h; exact .samples (some false) s.gate.pfail s.gate.fault
    | firstSample x pfail fault => exact effect_firstSample _ x pfail fault s t h
    | _ => cases hc

end Sys2Proof.Machine
end

section
/-! PROOFS. Which commands write memory, settings and the results of the watch units, and what every step keeps
of them. -/

namespace Sys2Proof.Machine

/-! ### What SET, FORMAT and the completion of an access leave alone -/

@[simp] theorem store_keeps (x : Setting) (v : Word) (s : State) :
    (x.store v s).straps = s.straps ∧ (x.store v s).up = s.up ∧ (x.store v s).port = s.port ∧
    (x.store v s).intake = s.intake ∧ (x.store v s).queue = s.queue ∧
    (x.store v s).engine = s.engine ∧ (x.store v s).region = s.region ∧
    (x.store v s).gate = s.gate ∧ (x.store v s).events = s.events ∧ (x.store v s).link = s.link ∧
    (x.store v s).time = s.time ∧ (x.store v s).mem = s.mem ∧ (x.store v s).free = s.free ∧
    (x.store v s).pending = s.pending := by
  cases x <;> simp [Setting.store]

@[simp] theorem beginFormat_keeps (base : Long) (slots : Word) (s : State) :
    (beginFormat base slots s).straps = s.straps ∧ (beginFormat base slots s).up = s.up ∧
    (beginFormat base slots s).port = s.port ∧ (beginFormat base slots s).queue = s.queue ∧
    (beginFormat base slots s).watch = s.watch ∧ (beginFormat base slots s).settings = s.settings ∧
    (beginFormat base slots s).events = s.events ∧ (beginFormat base slots s).link = s.link ∧
    (beginFormat base slots s).time = s.time ∧ (beginFormat base slots s).mem = s.mem ∧
    (beginFormat base slots s).free = s.free ∧ (beginFormat base slots s).pending = s.pending := by
  simp [beginFormat]

@[simp] theorem completeAccess_keeps (o : Owner) (a : Access) (answer : Option Word) (s : State) :
    (completeAccess o a answer s).straps = s.straps ∧
    (completeAccess o a answer s).settings = s.settings ∧
    (completeAccess o a answer s).link = s.link ∧ (completeAccess o a answer s).time = s.time ∧
    (completeAccess o a answer s).mem = s.memAfter a answer ∧
    (completeAccess o a answer s).free = s.free ∧
    (completeAccess o a answer s).pending = s.pending := by
  cases o <;> simp [completeAccess]

@[simp] theorem nextMicrosecond_keeps (s : State) :
    (nextMicrosecond s).intake = s.intake ∧ (nextMicrosecond s).queue = s.queue ∧
    (nextMicrosecond s).engine = s.engine ∧ (nextMicrosecond s).region = s.region ∧
    (nextMicrosecond s).watch = s.watch ∧ (nextMicrosecond s).settings = s.settings ∧
    (nextMicrosecond s).mem = s.mem := by
  simp [nextMicrosecond]

/-! ### How a cycle goes on (Chapter 2) -/

/-- A read that arrives is refused for the operating state, refused for its class with a comparison, or becomes
the current cycle. -/
theorem takeRead_cases (a : Addr) (s : State) :
    (∃ x, takeRead a s = refuse x .read .state 0 (openCycle s)) ∨
    (∃ x o held seen tag, takeRead a s =
      watchTrigger o (refuse x .read .cls tag (compareAll held seen (openCycle s)))) ∨
    ∃ c timer, timer.isSome = decide (c.phase ≠ .reading) ∧
      takeRead a s = holdCycle c timer (openCycle s) := by
  unfold takeRead
  dsimp only
  split
  · exact .inl ⟨_, rfl⟩
  · split
    · exact .inr (.inl ⟨_, _, _, _, _, rfl⟩)
    · refine .inr (.inr ⟨_, _, ?_, rfl⟩)
      split <;> rfl

/-- A write that arrives is refused for the operating state, refused behind a comparison, accepted into a free
entry, or waits. -/
theorem takeWrite_cases (a : Addr) (data : Word) (lanes : Lanes) (s : State) :
    (∃ x, takeWrite a data lanes s = refuse x .write .state 0 (openCycle s)) ∨
    (∃ x o held seen why tag, takeWrite a data lanes s =
      watchTrigger o (refuse x .write why tag (compareAll held seen (openCycle s)))) ∨
    (∃ x held seen, s.hasSpace = true ∧ s.refusesState = false ∧
      (s.lookup x).1.refusesWrites = false ∧
      takeWrite a data lanes s =
        acceptWrite x data lanes (s.lookup x).1 (compareAll held seen (openCycle s))) ∨
    ∃ c timer held seen, timer.isSome = true ∧ c.phase = .waitingWrite ∧
      takeWrite a data lanes s = holdCycle c timer (compareAll held seen (openCycle s)) := by
  unfold takeWrite
  dsimp only
  split
  · exact .inl ⟨_, rfl⟩
  · next taken =>
    split
    · exact .inr (.inl ⟨_, _, _, _, _, _, rfl⟩)
    · next writable =>
      split
      · exact .inr (.inl ⟨_, _, _, _, _, _, rfl⟩)
      · split
        · exact .inr (.inl ⟨_, none, _, _, _, _, rfl⟩)
        · unfold acceptOrWait
          split
          · next space =>
            have hs : s.hasSpace = true := by
              simpa [State.hasSpace, openCycle] using space.1
            exact .inr (.inr (.inl ⟨_, _, _, hs, Bool.eq_false_iff.2 taken,
              Bool.eq_false_iff.2 writable, rfl⟩))
          · exact .inr (.inr (.inr ⟨_, _, _, _, rfl, rfl, rfl⟩))

/-- A hold that runs out ends in a refusal, behind a comparison or without one. -/
theorem expireHold_cases (c : Cycle) (s : State) :
    (expireHold c s = refuse c.addr .write .timeout c.tag s) ∨
    (∃ o held seen, expireHold c s =
      watchTrigger o (refuse c.addr .read .timeout c.tag (compareAll held seen s))) ∨
    expireHold c s = s := by
  unfold expireHold
  split
  · exact .inl rfl
  · exact .inr (.inl ⟨_, _, _, rfl⟩)
  · exact .inr (.inr rfl)

/-- A read whose word is there is compared, and ends with a refusal or its word. -/
theorem finishRead_cases (data : Word) (s : State) :
    finishRead data s = s ∨
    (∃ c o held seen, finishRead data s =
      watchTrigger o (refuse (Cycle.addr c) .read .watch c.tag (compareAll held seen s))) ∨
    ∃ w held seen, finishRead data s = answerRead w (compareAll held seen s) := by
  unfold finishRead
  split
  · exact .inl rfl
  · next c _ =>
    dsimp only
    split
    · exact .inr (.inl ⟨c, _, _, _, rfl⟩)
    · exact .inr (.inr ⟨_, _, _, rfl⟩)

/-- A waiting write that claims an entry is refused, or accepted by a class that takes writes. -/
theorem claimEntry_cases (c : Cycle) (s : State) :
    (∃ why tag, claimEntry c s = refuse c.addr .write why tag s) ∨
    (s.refusesState = false ∧ (s.lookup c.addr).1.refusesWrites = false ∧
      claimEntry c s = acceptWrite c.addr c.data c.lanes (s.lookup c.addr).1 s) := by
  unfold claimEntry
  dsimp only
  split
  · exact .inl ⟨_, _, rfl⟩
  · next taken =>
    split
    · exact .inl ⟨_, _, rfl⟩
    · next writable =>
      split
      · exact .inl ⟨_, _, rfl⟩
      · exact .inr ⟨Bool.eq_false_iff.2 taken, Bool.eq_false_iff.2 writable, rfl⟩

/-- A claim is made for a waiting write that finds a free entry, or nothing happens. -/
theorem claimFirst_cases (s : State) :
    claimFirst s = s ∨
    ∃ c, s.up.cycle = some c ∧ s.hasSpace = true ∧ claimFirst s = claimEntry c s := by
  unfold claimFirst
  split
  · next c current =>
    split
    · next claims =>
      have space : s.hasSpace = true := (Bool.and_eq_true_iff.1 claims.2).1
      exact .inr ⟨c, current, space, rfl⟩
    · exact .inl rfl
  · exact .inl rfl

/-! ### Memory (2.6, 2.7) -/

theorem linkEffect_mem {c : Instr} {s u : State} (h : LinkEffect c s u) : u.mem = s.mem := by
  cases h <;> simp

/-- Memory changes only where an access completes or a reset cuts one off. -/
theorem effect_mem {c : Instr} {s t : State} (h : Effect c s t) (access : ∀ w, c ≠ .accessComplete w)
    (reset : ∀ m b, c ≠ .reset m b) : t.mem = s.mem := by
  cases h with
  | link l effect => rw [State.setLink_mem, linkEffect_mem effect]
  | reset m b command => exact absurd command (reset m b)
  | complete answer command => exact absurd command (access answer)
  | _ => simp

theorem memAfter_wf {s : State} (h : s.MemoryCanonical) (a : Access) (answer : Option Word) :
    (s.memAfter a answer).wf = true := by
  unfold State.memAfter
  split
  · exact h
  · exact Memory.wf_writeWord _ _ _ _ h
  · exact Memory.wf_writeWord _ _ _ _ h

theorem memCut_wf {s : State} (h : s.MemoryCanonical) : s.memCut.wf = true := by
  unfold State.memCut
  repeat' split
  · exact Memory.wf_writeWord _ _ _ _ h
  · exact h
  · exact h

theorem effect_keeps_memoryCanonical {c : Instr} {s t : State} (hs : s.MemoryCanonical)
    (h : Effect c s t) : t.MemoryCanonical := by
  cases h with
  | link l effect =>
    unfold State.MemoryCanonical
    rwa [State.setLink_mem, linkEffect_mem effect]
  | reset m b command => exact memCut_wf hs
  | complete answer command access => simpa [State.MemoryCanonical] using memAfter_wf hs _ answer
  | _ => simpa [State.MemoryCanonical] using hs

/-- Settles O6: only a completed access and a reset write memory, and each by a word write. -/
theorem stepKeepsMemoryCanonical : Obligations.StepKeepsMemoryCanonical := by
  intro s t hs h
  exact step_keeps (P := State.MemoryCanonical) (fun _ _ _ h => h) (fun _ _ h => h)
    (fun s h => by simpa [State.MemoryCanonical] using h)
    (fun _ _ _ hs h => effect_keeps_memoryCanonical hs (effect_of_exec h)) hs h

/-! ### Settings (10.4) -/

theorem linkEffect_settings {c : Instr} {s u : State} (h : LinkEffect c s u) :
    u.settings = s.settings ∨
    ∃ x v, Setting.accepts x v = true ∧ x.read s ≠ v ∧ u.settings = (x.store v s).settings := by
  cases h with
  | set x v accepted new => exact .inr ⟨x, v, accepted, new, by simp⟩
  | _ => exact .inl (by simp)

/-- Settings change only by a SET that is accepted and by a reset. -/
theorem effect_settings {c : Instr} {s t : State} (h : Effect c s t) :
    t.settings = s.settings ∨ t.settings = resetSettings ∨
    ∃ x v, Setting.accepts x v = true ∧ x.read s ≠ v ∧ t.settings = (x.store v s).settings := by
  cases h with
  | link l effect => exact (linkEffect_settings effect).imp_right .inr
  | reset m b command => exact .inr (.inl rfl)
  | _ => exact .inl (by simp)

theorem store_settingsInRange {s : State} (hs : s.SettingsInRange) {x : Setting} {v : Word}
    (accepted : x.accepts v = true) : (x.store v s).SettingsInRange := by
  cases x <;> simp_all [State.SettingsInRange, Setting.store, Setting.storeIn, Setting.accepts]

theorem effect_keeps_settingsInRange {c : Instr} {s t : State} (hs : s.SettingsInRange)
    (h : Effect c s t) : t.SettingsInRange := by
  unfold State.SettingsInRange
  obtain e | e | ⟨x, v, accepted, -, e⟩ := effect_settings h <;> rw [e]
  · exact hs
  · decide
  · exact store_settingsInRange hs accepted

/-- Settles O12: a reset gives values in range, and a SET stores only a value that its setting accepts. -/
theorem stepKeepsSettingsInRange : Obligations.StepKeepsSettingsInRange := by
  intro s t hs h
  exact step_keeps (P := State.SettingsInRange) (fun _ _ _ h => h) (fun _ _ h => h)
    (fun s h => by simpa [State.SettingsInRange] using h)
    (fun _ _ _ hs h => effect_keeps_settingsInRange hs (effect_of_exec h)) hs h

/-! ### Watch units (8.3) -/

/-- Every unit agrees: the property that is followed unit by unit. -/
theorem watchAgrees_iff (s : State) : s.WatchAgrees ↔ ∀ n, (s.watch.get n).Agrees := by
  constructor
  · rintro ⟨h0, h1, h2, h3⟩ n
    match n with
    | 0 => exact h0
    | 1 => exact h1
    | 2 => exact h2
    | 3 => exact h3
  · exact fun h => ⟨h 0, h 1, h 2, h 3⟩

theorem satInc_ne_zero (w : Word) : satInc w ≠ 0 := by
  unfold satInc
  split
  · next h => simp [h]
  · next h =>
    intro e
    exact h (by bv_omega)

/-- A unit that has been hit counts the hit and holds a capture. -/
theorem WatchUnit.agrees_of_hit {u v : WatchUnit} {seen : WatchCapture} (hits : v.hits = satInc u.hits)
    (capture : v.capture = some seen) : v.Agrees := by
  rw [WatchUnit.Agrees, capture, hits, decide_eq_true (satInc_ne_zero _)]
  rfl

/-- A comparison leaves a unit as it is or hits it. -/
theorem compareAll_keeps_watchAgrees {s : State} (hs : s.WatchAgrees) (held : Four WatchSettings)
    (seen : WatchCapture) : (compareAll held seen s).WatchAgrees := by
  rw [watchAgrees_iff] at hs ⊢
  intro n
  rw [(compareAll_spec held seen s).1 n]
  split
  · exact WatchUnit.agrees_of_hit rfl rfl
  · exact hs n

theorem put_keeps_watchAgrees {s : State} (hs : s.WatchAgrees) (n : Fin 4) {u : WatchUnit}
    (hu : u.Agrees) : (s.setWatch (s.watch.put n u)).WatchAgrees := by
  rw [watchAgrees_iff] at hs ⊢
  intro m
  by_cases h : m = n
  · rw [h, State.setWatch_watch, Four.get_put_same]
    exact hu
  · rw [State.setWatch_watch, Four.get_put_other _ _ _ _ h]
    exact hs m

theorem store_keeps_watchAgrees {s : State} (hs : s.WatchAgrees) (x : Setting) (v : Word) :
    (x.store v s).WatchAgrees := by
  cases x with
  | watch n f => exact put_keeps_watchAgrees hs n ((watchAgrees_iff s).1 hs n)
  | _ => exact hs

theorem watchAgrees_congr {s t : State} (h : t.watch = s.watch) (hs : s.WatchAgrees) :
    t.WatchAgrees := by
  unfold State.WatchAgrees
  rwa [h]

theorem linkEffect_keeps_watchAgrees {c : Instr} {s u : State} (hs : s.WatchAgrees)
    (h : LinkEffect c s u) : u.WatchAgrees := by
  cases h with
  | set x v => exact watchAgrees_congr (by simp) (store_keeps_watchAgrees hs x v)
  | clearWatch n => exact put_keeps_watchAgrees hs n (by simp [WatchUnit.Agrees])
  | _ => exact watchAgrees_congr (by simp) hs

theorem takeRead_keeps_watchAgrees {s : State} (hs : s.WatchAgrees) (a : Addr) :
    (takeRead a s).WatchAgrees := by
  obtain ⟨x, e⟩ | ⟨x, o, held, seen, tag, e⟩ | ⟨x, timer, -, e⟩ := takeRead_cases a s <;> rw [e]
  · exact watchAgrees_congr (by simp) hs
  · exact watchAgrees_congr (by simp) (compareAll_keeps_watchAgrees (s := openCycle s) hs held seen)
  · exact watchAgrees_congr (by simp) hs

theorem takeWrite_keeps_watchAgrees {s : State} (hs : s.WatchAgrees) (a : Addr) (d : Word)
    (lanes : Lanes) : (takeWrite a d lanes s).WatchAgrees := by
  have compared := compareAll_keeps_watchAgrees (s := openCycle s) hs
  obtain ⟨x, e⟩ | ⟨x, o, held, seen, why, tag, e⟩ | ⟨x, held, seen, -, -, -, e⟩ |
    ⟨x, timer, held, seen, -, -, e⟩ := takeWrite_cases a d lanes s <;> rw [e]
  · exact watchAgrees_congr (by simp) hs
  · exact watchAgrees_congr (by simp) (compared held seen)
  · exact watchAgrees_congr (by simp) (compared held seen)
  · exact watchAgrees_congr (by simp) (compared held seen)

theorem expireHold_keeps_watchAgrees {s : State} (hs : s.WatchAgrees) (c : Cycle) :
    (expireHold c s).WatchAgrees := by
  obtain e | ⟨o, held, seen, e⟩ | e := expireHold_cases c s <;> rw [e]
  · exact watchAgrees_congr (by simp) hs
  · exact watchAgrees_congr (by simp) (compareAll_keeps_watchAgrees hs held seen)
  · exact hs

theorem finishRead_keeps_watchAgrees {s : State} (hs : s.WatchAgrees) (data : Word) :
    (finishRead data s).WatchAgrees := by
  obtain e | ⟨c, o, held, seen, e⟩ | ⟨w, held, seen, e⟩ := finishRead_cases data s <;> rw [e]
  · exact hs
  · exact watchAgrees_congr (by simp) (compareAll_keeps_watchAgrees hs held seen)
  · exact watchAgrees_congr (by simp) (compareAll_keeps_watchAgrees hs held seen)

theorem completeAccess_keeps_watchAgrees {s : State} (hs : s.WatchAgrees) (o : Owner) (a : Access)
    (answer : Option Word) : (completeAccess o a answer s).WatchAgrees := by
  unfold completeAccess
  dsimp only
  split
  · refine finishRead_keeps_watchAgrees ?_ _
    exact hs
  · exact watchAgrees_congr (by simp) hs

theorem effect_keeps_watchAgrees {c : Instr} {s t : State} (hs : s.WatchAgrees)
    (h : Effect c s t) : t.WatchAgrees := by
  cases h with
  | link l effect =>
    have hu := linkEffect_keeps_watchAgrees hs effect
    exact hu
  | reset m b command => exact (by decide : resetWatchUnit.Agrees ∧ resetWatchUnit.Agrees ∧
      resetWatchUnit.Agrees ∧ resetWatchUnit.Agrees)
  | read a free => exact takeRead_keeps_watchAgrees hs a
  | write a d lanes free => exact takeWrite_keeps_watchAgrees hs a d lanes
  | expire current => exact expireHold_keeps_watchAgrees hs _
  | complete answer command access => exact completeAccess_keeps_watchAgrees hs _ _ answer
  | _ => exact watchAgrees_congr (by simp) hs

/-- Settles O10: a comparison counts a hit and fills the capture together, CLEAR WATCH and a reset empty
both, and nothing else reaches them. -/
theorem stepKeepsWatchAgrees : Obligations.StepKeepsWatchAgrees := by
  intro s t hs h
  exact step_keeps (P := State.WatchAgrees) (fun _ _ _ h => h) (fun _ _ h => h)
    (fun s h => watchAgrees_congr (by simp) h)
    (fun _ _ _ hs h => effect_keeps_watchAgrees hs (effect_of_exec h)) hs h

end Sys2Proof.Machine
end

section
/-! PROOFS. What the shared operations uphold: the lines with the operating state, the size of the queue, the
line filter, the lines of the current cycle, and the events that are raised. -/

namespace Sys2Proof.Machine

/-! ### Events that are raised (11.2, 11.3) -/

/-- Nothing has been done to flags, ATTN and pulse but the raising of events. -/
inductive Events.Raised (cfg : Settings) (a : Events) : Events → Prop
  | refl : Events.Raised cfg a a
  | raise {b : Events} (e : Event) (h : Events.Raised cfg a b) : Events.Raised cfg a (b.raise cfg e)
  | rest {b x : Events} (h : Events.Raised cfg a b) (flags : x.flags = b.flags) (attn : x.attn = b.attn)
      (pulse : x.pulse = b.pulse) : Events.Raised cfg a x

theorem Events.Raised.trans {cfg : Settings} {a b x : Events} (hab : a.Raised cfg b)
    (hbx : b.Raised cfg x) : a.Raised cfg x := by
  induction hbx with
  | refl => exact hab
  | raise e _ ih => exact ih.raise e
  | rest _ flags attn pulse ih => exact ih.rest flags attn pulse

/-- A flag that is set stays set. -/
theorem Events.Raised.mono {cfg : Settings} {a b : Events} (h : a.Raised cfg b) (e : Event)
    (set : a.flags.getLsbD e.bit = true) : b.flags.getLsbD e.bit = true := by
  induction h with
  | refl => exact set
  | raise f _ ih => rw [Events.raise_flags, BitVec.getLsbD_or, ih, Bool.true_or]
  | rest _ flags _ _ ih => rw [flags, ih]

theorem State.flagged_mono {s t : State} (h : s.events.Raised s.settings t.events) {e : Event}
    (set : s.flagged e = true) : t.flagged e = true :=
  h.mono e set

/-! ### What is upheld from one state to another -/

/-- What every operation upholds, whatever the state it begins in. -/
structure State.Upholds (s t : State) : Prop where
  pins : s.PinsFollow → t.PinsFollow
  queue : s.QueueFits → t.QueueFits
  filter : s.FilterSound → t.FilterSound
  lines : s.CycleLinesFollow → t.CycleLinesFollow
  settings : t.settings = s.settings
  events : s.events.Raised s.settings t.events
  /-- FROZE is raised at an entry into FROZEN. -/
  entry : s.gate.opState ≠ .frozen → t.gate.opState = .frozen → t.flagged .froze = true
  /-- FROZE is raised by nothing else. -/
  quiet : s.gate.opState ≠ .frozen → t.gate.opState = .frozen ∨ t.flagged .froze = s.flagged .froze

/-- What every operation upholds that opens no gate: FROZEN is left alone, and FROZE in it. -/
structure State.Moves (s t : State) : Prop extends State.Upholds s t where
  frozen : s.gate.opState = .frozen → t.gate.opState = .frozen ∧ t.flagged .froze = s.flagged .froze

theorem State.Upholds.trans {s u t : State} (h : s.Upholds u) (k : u.Upholds t)
    (quiet : s.gate.opState ≠ .frozen → t.gate.opState = .frozen ∨ t.flagged .froze = s.flagged .froze) :
    s.Upholds t where
  pins := k.pins ∘ h.pins
  queue := k.queue ∘ h.queue
  filter := k.filter ∘ h.filter
  lines := k.lines ∘ h.lines
  settings := k.settings.trans h.settings
  events := h.events.trans (h.settings ▸ k.events)
  entry := by
    intro outside enters
    by_cases mid : u.gate.opState = .frozen
    · exact State.flagged_mono k.events (h.entry outside mid)
    · exact k.entry mid enters
  quiet := quiet

/-- What is upheld up to a state is upheld beyond it, where no gate opens any more. -/
theorem State.Upholds.andThen {s u t : State} (h : s.Upholds u) (k : u.Moves t) : s.Upholds t :=
  h.trans k.toUpholds fun outside => by
    by_cases mid : u.gate.opState = .frozen
    · exact .inl (k.frozen mid).1
    · have flag := (h.quiet outside).resolve_left mid
      exact (k.quiet mid).imp_right fun same => same.trans flag

/-- What is upheld from a state on is upheld from before it, where the operating state has not moved. -/
theorem State.Moves.before {s u t : State} (h : s.Moves u) (same : u.gate.opState = s.gate.opState)
    (k : u.Upholds t) : s.Upholds t :=
  h.toUpholds.trans k fun outside => by
    have mid : u.gate.opState ≠ .frozen := same ▸ outside
    have flag := (h.quiet outside).resolve_left mid
    exact (k.quiet mid).imp_right fun same => same.trans flag

theorem State.Moves.trans {s u t : State} (h : s.Moves u) (k : u.Moves t) : s.Moves t where
  toUpholds := h.toUpholds.andThen k
  frozen := by
    intro hs
    obtain ⟨hu, flag⟩ := h.frozen hs
    exact ⟨(k.frozen hu).1, (k.frozen hu).2.trans flag⟩

/-- The operating state and the pins that follow it. -/
def State.modePins (s : State) : OpState × Bool × Bool := (s.gate.opState, s.gate.frz, s.gate.ready)

/-- The settings, and what of the Event Unit bears on ATTN. -/
def State.attnParts (s : State) : Settings × BitVec 13 × Bool × Option Nat :=
  (s.settings, s.events.flags, s.events.attn, s.events.pulse)

theorem moves_of {s t : State} (pins : t.modePins = s.modePins) (queue : s.QueueFits → t.QueueFits)
    (filter : s.FilterSound → t.FilterSound) (lines : s.CycleLinesFollow → t.CycleLinesFollow)
    (attn : t.attnParts = s.attnParts) : s.Moves t := by
  simp only [State.modePins, Prod.mk.injEq] at pins
  simp only [State.attnParts, Prod.mk.injEq] at attn
  obtain ⟨mode, frz, ready⟩ := pins
  obtain ⟨settings, flags, level, pulse⟩ := attn
  have flag : t.flagged .froze = s.flagged .froze := by rw [State.flagged, flags, State.flagged]
  constructor
  case toUpholds =>
    exact {
      pins := fun h => by rw [State.PinsFollow, mode, frz, ready]; exact h
      queue := queue
      filter := filter
      lines := lines
      settings := settings
      events := .rest .refl flags level pulse
      entry := fun outside enters => absurd (mode ▸ enters) outside
      quiet := fun _ => .inr flag }
  case frozen => exact fun h => ⟨mode.trans h, flag⟩

/-- Everything but the lines of the current cycle is as it was. -/
theorem moves_of_lines {s t : State} (pins : t.modePins = s.modePins)
    (queue : t.queue.entries = s.queue.entries)
    (filter : (t.intake.filter, t.intake.removed) = (s.intake.filter, s.intake.removed))
    (lines : s.CycleLinesFollow → t.CycleLinesFollow) (attn : t.attnParts = s.attnParts) :
    s.Moves t := by
  rw [Prod.mk.injEq] at filter
  refine moves_of pins (fun h => ?_) (fun h => ?_) lines attn
  · rwa [State.QueueFits, queue]
  · rwa [State.FilterSound, filter.1, filter.2]

/-- Nothing that is upheld has been touched. -/
theorem moves_of_same {s t : State} (pins : t.modePins = s.modePins)
    (queue : t.queue.entries = s.queue.entries)
    (filter : (t.intake.filter, t.intake.removed) = (s.intake.filter, s.intake.removed))
    (lines : (t.up.cycle, t.up.timer, t.up.uwait) = (s.up.cycle, s.up.timer, s.up.uwait))
    (attn : t.attnParts = s.attnParts) : s.Moves t := by
  simp only [Prod.mk.injEq] at lines
  obtain ⟨cycle, timer, uwait⟩ := lines
  refine moves_of_lines pins queue filter (fun h => ?_) attn
  rwa [State.CycleLinesFollow, Upstream.holding, cycle, timer, uwait]

theorem State.Moves.refl (s : State) : s.Moves s := moves_of_same rfl rfl rfl rfl rfl

theorem moves_setEngine (x : Engine) (s : State) : s.Moves (s.setEngine x) :=
  moves_of_same rfl rfl rfl rfl rfl

theorem moves_setRegion (x : RegionMap) (s : State) : s.Moves (s.setRegion x) :=
  moves_of_same rfl rfl rfl rfl rfl

theorem moves_setWatch (x : Four WatchUnit) (s : State) : s.Moves (s.setWatch x) :=
  moves_of_same rfl rfl rfl rfl rfl

theorem moves_setLink (x : Link) (s : State) : s.Moves (s.setLink x) :=
  moves_of_same rfl rfl rfl rfl rfl

/-- Of the gate only causes, level, order and the state of the input lines change. -/
theorem moves_setGate {x : Gate} {s : State}
    (pins : (x.opState, x.frz, x.ready) = (s.gate.opState, s.gate.frz, s.gate.ready)) :
    s.Moves (s.setGate x) :=
  moves_of_same pins rfl rfl rfl rfl

/-! ### Events and counters -/

/-- Every event but FROZE may be raised at any moment. -/
theorem moves_raise (e : Event) (s : State) (h : e ≠ .froze) : s.Moves (raise e s) where
  pins := fun h => h
  queue := fun h => h
  filter := fun h => h
  lines := fun h => h
  settings := rfl
  events := .raise e .refl
  entry := fun outside enters => absurd enters outside
  quiet := fun _ => .inr (by simp [Ne.symm h])
  frozen := fun hs => ⟨hs, by simp [Ne.symm h]⟩

theorem moves_count (c : Counter) (s : State) : s.Moves (count c s) :=
  moves_of_same rfl rfl rfl rfl rfl

theorem compareUnit_moves (n : Fin 4) (held : Four WatchSettings) (seen : WatchCapture) (s : State) :
    s.Moves (compareUnit n held seen s) := by
  unfold compareUnit
  split
  · exact (moves_setWatch _ s).trans (moves_raise _ _ (by simp))
  · exact .refl s

theorem compareAll_moves (held : Four WatchSettings) (seen : WatchCapture) (s : State) :
    s.Moves (compareAll held seen s) :=
  (((compareUnit_moves 0 held seen s).trans (compareUnit_moves 1 held seen _)).trans
    (compareUnit_moves 2 held seen _)).trans (compareUnit_moves 3 held seen _)

/-! ### The current cycle (2.2, 2.5) -/

theorem endCycle_moves (s : State) : s.Moves (endCycle s) :=
  moves_of_lines rfl rfl rfl (fun _ => ⟨rfl, rfl⟩) rfl

theorem openCycle_moves (s : State) : s.Moves (openCycle s) :=
  moves_of_same rfl rfl rfl rfl rfl

theorem answerRead_moves (w : Word) (s : State) : s.Moves (answerRead w s) :=
  moves_of_lines rfl rfl rfl (fun _ => ⟨rfl, rfl⟩) rfl

theorem holdCycle_moves {c : Cycle} {timer : Option WaitTimer}
    (h : timer.isSome = decide (c.phase ≠ .reading)) (s : State) : s.Moves (holdCycle c timer s) :=
  moves_of_lines rfl rfl rfl (fun _ => ⟨rfl, h⟩) rfl

theorem refuse_moves (a : Addr) (d : Direction) (why : Reason) (tag : Word) (s : State) :
    s.Moves (refuse a d why tag s) := by
  have event : why.event ≠ .froze := by cases why <;> simp [Reason.event]
  cases d with
  | write =>
    refine State.Moves.trans ?_ (moves_raise why.event _ event)
    refine State.Moves.trans ?_ (moves_count why.counter _)
    exact moves_of_lines rfl rfl rfl (fun _ => ⟨rfl, rfl⟩) rfl
  | read =>
    refine State.Moves.trans ?_ (moves_raise why.event _ event)
    refine State.Moves.trans ?_ (moves_count .refusedReads _)
    refine State.Moves.trans ?_ (moves_count why.counter _)
    exact moves_of_lines rfl rfl rfl (fun _ => ⟨rfl, rfl⟩) rfl

theorem refuseWaiting_moves (s : State) : s.Moves (refuseWaiting s) := by
  unfold refuseWaiting
  split
  · exact .refl s
  · split
    · exact refuse_moves _ _ _ _ s
    · exact .refl s

/-! ### The queue and Intake (Chapter 3) -/

theorem hasSpace_iff (s : State) : s.hasSpace = true ↔ s.queue.entries.length < 16 := by
  exact decide_eq_true_iff

theorem appendEntry_moves {s : State} (space : s.hasSpace = true) (e : Entry) :
    s.Moves (appendEntry e s) := by
  refine moves_of rfl (fun _ => ?_) (fun h => h) (fun h => h) rfl
  · have := (hasSpace_iff s).1 space
    simp only [State.QueueFits, appendEntry, State.setQueue_queue, List.length_append,
      List.length_singleton]
    omega

/-- The lookup of a line keeps the filter within 64 lines, every line once, and on one of the two lists
(R48, R49). -/
theorem filterLookup_sound {filter removed : List Addr} (line : Addr) (fits : filter.length ≤ 64)
    (nodup : filter.Nodup) (rnodup : removed.Nodup) (apart : ∀ l ∈ removed, l ∉ filter) :
    (filterLookup filter removed line).1.length ≤ 64 ∧ (filterLookup filter removed line).1.Nodup ∧
    (filterLookup filter removed line).2.1.Nodup ∧
    ∀ l ∈ (filterLookup filter removed line).2.1, l ∉ (filterLookup filter removed line).1 := by
  unfold filterLookup
  split
  · exact ⟨fits, nodup, rnodup, apart⟩
  · next absent =>
    dsimp only
    split
    · next space =>
      have space : filter.length < 64 := space
      refine ⟨by simp; omega, ?_, rnodup.filter _, ?_⟩
      · simpa [List.nodup_append, nodup] using fun a ha => ne_of_mem_of_not_mem ha absent
      · simp only [List.mem_filter, decide_eq_true_eq, List.mem_append, List.mem_singleton, not_or]
        exact fun l hl => ⟨apart l hl.1, hl.2⟩
    · cases filter with
      | nil => simp_all [Config.filterSize]
      | cons oldest rest =>
        obtain ⟨fresh, rest_nodup⟩ := List.nodup_cons.1 nodup
        obtain ⟨other, absent⟩ := not_or.1 (mt List.mem_cons.2 absent)
        refine ⟨by simpa using fits, ?_, ?_, ?_⟩
        · simpa [List.nodup_append, rest_nodup] using fun a ha => ne_of_mem_of_not_mem ha absent
        · have : oldest ∉ removed := fun h => apart _ h List.mem_cons_self
          simpa [List.nodup_append, rnodup.filter] using
            fun a ha _ => ne_of_mem_of_not_mem ha this
        · simp only [List.mem_append, List.mem_filter, decide_eq_true_eq, List.mem_singleton, not_or]
          rintro l (⟨hl, hne⟩ | rfl)
          · exact ⟨fun h => apart l hl (List.mem_cons_of_mem _ h), hne⟩
          · exact ⟨fresh, Ne.symm other⟩

theorem acceptJournaled_moves {s : State} (space : s.hasSpace = true) (a : Addr) (data : Word)
    (lanes : Lanes) : s.Moves (acceptJournaled a data lanes s) := by
  unfold acceptJournaled
  dsimp only
  refine State.Moves.trans ?_ (appendEntry_moves (by exact space) _)
  refine moves_of rfl (fun h => h) ?_ (fun h => h) rfl
  rintro ⟨fits, nodup, rnodup, apart⟩
  obtain ⟨fits, nodup, rnodup, apart⟩ := filterLookup_sound (lineOf a) fits nodup rnodup
    fun l hl => of_decide_eq_true (List.all_eq_true.1 apart l hl)
  exact ⟨fits, nodup, rnodup, List.all_eq_true.2 fun l hl => decide_eq_true (apart l hl)⟩

theorem acceptWrite_moves {s : State} (space : s.hasSpace = true) (a : Addr) (data : Word)
    (lanes : Lanes) (cls : RegionClass) : s.Moves (acceptWrite a data lanes cls s) := by
  refine State.Moves.trans ?_ (endCycle_moves _)
  cases cls with
  | journaled => exact acceptJournaled_moves space a data lanes
  | _ => exact appendEntry_moves space _

theorem claimEntry_moves {s : State} (space : s.hasSpace = true) (c : Cycle) :
    s.Moves (claimEntry c s) := by
  obtain ⟨why, tag, e⟩ | ⟨-, -, e⟩ := claimEntry_cases c s <;> rw [e]
  · exact refuse_moves _ _ _ _ s
  · exact acceptWrite_moves space _ _ _ _

theorem claimFirst_moves (s : State) : s.Moves (claimFirst s) := by
  obtain e | ⟨c, -, space, e⟩ := claimFirst_cases s <;> rw [e]
  · exact .refl s
  · exact claimEntry_moves space c

/-- Intake is cleared, whatever else of it changes. -/
theorem moves_cleared {s : State} {i : Intake} (filter : i.filter = []) (removed : i.removed = []) :
    s.Moves (s.setIntake i) :=
  moves_of rfl (fun h => h) (fun _ => by simp [State.FilterSound, filter, removed]) (fun h => h) rfl

theorem switchTable_moves (s : State) : s.Moves (switchTable s) := by
  unfold switchTable
  split <;> exact moves_of_same rfl rfl rfl rfl rfl

theorem makeToken_moves {s : State} (space : s.hasSpace = true) : s.Moves (makeToken s) :=
  ((appendEntry_moves space _).trans (switchTable_moves _)).trans (moves_cleared rfl rfl)

theorem hasSpace_of_commitStep {s : State} (h : s.commitStep = .token) : s.hasSpace = true := by
  unfold State.commitStep at h
  by_contra space
  repeat' split at h
  all_goals simp_all

/-- The steps of a commit request: a token is made into a free entry, or Intake alone changes (R52). -/
theorem takeCommit_cases (s : State) :
    takeCommit s = s ∨ (s.commitStep = .held ∧
      takeCommit s = s.setIntake { s.intake with pendingCommit := true }) ∨
    (s.commitStep = .token ∧ takeCommit s = makeToken s) := by
  unfold takeCommit
  split
  · next h => exact .inr (.inl ⟨h, rfl⟩)
  · next h => exact .inr (.inr ⟨h, rfl⟩)
  all_goals exact .inl rfl

theorem takeCommit_moves (s : State) : s.Moves (takeCommit s) := by
  obtain e | ⟨-, e⟩ | ⟨token, e⟩ := takeCommit_cases s <;> rw [e]
  · exact .refl s
  · exact moves_of_same rfl rfl rfl rfl rfl
  · exact makeToken_moves (hasSpace_of_commitStep token)

theorem takeAuto_moves (s : State) : s.Moves (takeAuto s) := by
  unfold takeAuto
  dsimp only
  split
  · next token => exact makeToken_moves (hasSpace_of_commitStep token)
  all_goals exact moves_of_same rfl rfl rfl rfl rfl

/-! ### Discard orders (3.7) -/

theorem stopKeep_length (q : List Entry) : (stopKeep q).length ≤ q.length := by
  induction q with
  | nil => exact Nat.le_refl 0
  | cons e q ih =>
    unfold stopKeep
    split <;> simp only [List.length_cons] <;> omega

theorem stopKept_length (s : State) : s.stopKept.length ≤ s.queue.entries.length := by
  unfold State.stopKept
  split
  · next h =>
    rw [h]
    simpa using stopKeep_length _
  · exact stopKeep_length _

/-- Entries leave the queue. -/
theorem moves_fewer {s : State} {p : Posted} (h : p.entries.length ≤ s.queue.entries.length) :
    s.Moves (s.setQueue p) :=
  moves_of rfl (fun hs => h.trans hs) (fun h => h) (fun h => h) rfl

theorem stopOrder_moves (s : State) : s.Moves (stopOrder s) := by
  have discarded : s.Moves (s.setQueue (s.queue.discardTo s.stopKept)) :=
    moves_fewer (stopKept_length s)
  refine (discarded.trans (moves_cleared (i := { s.intake.cleared with pendingCommit := false })
    rfl rfl)).trans ?_
  exact moves_setEngine _ _

theorem undoSwitch_moves (s : State) : s.Moves (undoSwitch s) :=
  moves_of_same rfl rfl rfl rfl rfl

theorem faultOrder_moves (s : State) : s.Moves (faultOrder s) := by
  have discarded : s.Moves (s.setQueue (s.queue.discardTo
      (s.queue.entries.filter fun e => !e.isJournaled && !e.isSeal))) :=
    moves_fewer (List.length_filter_le _ _)
  have cleared := discarded.trans (moves_cleared
    (i := { s.intake.cleared with pendingCommit := false, group := s.openGroup }) rfl rfl)
  unfold faultOrder
  dsimp only
  split
  · exact cleared.trans (undoSwitch_moves _)
  · exact cleared

/-! ### Triggers (6.3, 6.4) -/

theorem addCause_moves (c : Cause) (s : State) : s.Moves (addCause c s) :=
  moves_of_same rfl rfl rfl rfl rfl

theorem setLevel_moves (a : Action) (s : State) : s.Moves (setLevel a s) :=
  moves_of_same rfl rfl rfl rfl rfl

theorem placeOrder_moves (o : Origin) (s : State) : s.Moves (placeOrder o s) := by
  unfold placeOrder
  split
  · exact .refl s
  · exact moves_of_same rfl rfl rfl rfl rfl

/-- The gate closes with FROZE raised, where it was open. -/
theorem raise_froze_moves {s : State} (h : s.gate.opState ≠ .frozen) :
    s.Moves (raise .froze (setOpState .frozen s)) where
  queue := fun h => h
  filter := fun h => h
  lines := fun h => h
  settings := rfl
  pins := fun _ => by simp [State.PinsFollow, setOpState]
  events := .raise .froze .refl
  entry := fun _ _ => by simp
  quiet := fun _ => .inl (by simp [setOpState])
  frozen := fun hs => absurd hs h

theorem closeGate_moves {s : State} (h : s.gate.opState ≠ .frozen) : s.Moves (closeGate s) :=
  (raise_froze_moves h).trans (refuseWaiting_moves _)

theorem actStopped_moves (cause : Cause) (a : Action) (s : State) :
    s.Moves (actStopped cause a s) := by
  cases a with
  | none | sealGroup => exact .refl s
  | stop => exact stopOrder_moves s
  | rollback => exact (stopOrder_moves s).trans (placeOrder_moves _ _)

theorem actOpen_moves (a : Action) (s : State) : s.Moves (actOpen a s) := by
  cases a with
  | sealGroup =>
    refine State.Moves.trans ?_ (takeCommit_moves _)
    split
    · exact .refl s
    · exact claimFirst_moves s
  | _ => exact .refl s

/-- A trigger in RUNNING closes the gate, in FROZEN it may act on the closed gate, elsewhere it does nothing. -/
theorem trigger_moves (cause : Cause) (a : Action) (s : State) : s.Moves (trigger cause a s) := by
  cases h : s.gate.opState with
  | running =>
    rw [trigger_of_running h]
    refine State.Moves.trans ?_ (setLevel_moves a _)
    refine State.Moves.trans ?_ (actStopped_moves cause a _)
    refine State.Moves.trans ((addCause_moves cause s).trans (actOpen_moves a _)) ?_
    exact closeGate_moves (by simp [addCause_gate, h])
  | frozen =>
    by_cases stronger : s.gate.level.strength < a.strength
    · rw [trigger_of_stronger h cause stronger]
      exact (((addCause_moves cause s).trans (actOpen_moves a _)).trans
        (actStopped_moves cause a _)).trans (setLevel_moves a _)
    · rw [trigger_of_not_stronger h cause stronger]
      exact addCause_moves cause s
  | recovering | unformatted | formatting => simpa [trigger, h] using State.Moves.refl s

theorem watchTrigger_moves (o : Option WatchAction) (s : State) : s.Moves (watchTrigger o s) := by
  unfold watchTrigger
  split
  · exact trigger_moves _ _ s
  all_goals exact .refl s

theorem setInput_moves (l : InputLine) (x : InputState) (s : State) : s.Moves (setInput l x s) := by
  cases l <;> exact moves_setGate rfl

theorem lineTrigger_moves (l : InputLine) (s : State) : s.Moves (lineTrigger l s) :=
  trigger_moves _ _ s

end Sys2Proof.Machine
end

section
/-! PROOFS. What the Store Engine's work upholds: drains, rollbacks, recovery and Format, access by access. -/

namespace Sys2Proof.Machine

/-! ### The engine's work -/

theorem setWork_moves (w : Work) (s : State) : s.Moves (setWork w s) :=
  moves_of_same rfl rfl rfl rfl rfl

theorem finishDrain_moves (s : State) : s.Moves (finishDrain s) :=
  (moves_fewer (by simp)).trans (setWork_moves .idle _)

theorem closeGroup_moves (g : GroupNo) (s : State) : s.Moves (closeGroup g s) :=
  moves_of_same rfl rfl rfl rfl rfl

theorem checkExhausted_moves (s : State) : s.Moves (checkExhausted s) := by
  unfold checkExhausted
  split
  · exact trigger_moves _ _ s
  · exact .refl s

theorem setGroup_moves (g : GroupNo) (s : State) : s.Moves (setGroup g s) :=
  moves_of_same rfl rfl rfl rfl rfl

/-! ### Live rollbacks (Chapter 7) -/

/-- A held read is offered to the port: its cycle stays, and its hold ends (R30). -/
theorem releaseHeld_moves (s : State) : s.Moves (releaseHeld s) := by
  unfold releaseHeld
  split
  · exact .refl s
  · next c current =>
    split
    · exact moves_of_lines rfl rfl rfl (fun ⟨wait, _⟩ => ⟨wait.trans (by simp [current]), rfl⟩) rfl
    · exact .refl s

theorem fillReport_moves (r : RestoreReport) (s : State) : s.Moves (fillReport r s) :=
  moves_of_same rfl rfl rfl rfl rfl

theorem endRollback_moves (r : Rollback) (outcome : RestoreOutcome) (stop idx : Option Nat)
    (s : State) : s.Moves (endRollback r outcome stop idx s) := by
  refine State.Moves.trans ?_ (releaseHeld_moves _)
  refine State.Moves.trans ?_ (setWork_moves .idle _)
  refine State.Moves.trans ?_ (fillReport_moves _ _)
  exact moves_of_same rfl rfl rfl rfl rfl

theorem moves_mapEntries (f : Entry → Entry) (s : State) :
    s.Moves (s.setQueue { s.queue with entries := s.queue.entries.map f }) :=
  moves_fewer (by simp)

theorem voidDone_moves (r : Rollback) (stop : Option Nat) (mismatch : Bool) (s : State) :
    s.Moves (voidDone r stop mismatch s) := by
  refine State.Moves.trans ?_ (endRollback_moves _ _ _ _ _)
  refine State.Moves.trans ?_ (checkExhausted_moves _)
  refine State.Moves.trans ?_ (moves_count _ _)
  refine State.Moves.trans ?_ (moves_raise .voided _ (by simp))
  refine State.Moves.trans ?_ (moves_mapEntries Entry.renumbered _)
  refine State.Moves.trans ?_ (setGroup_moves _ _)
  exact closeGroup_moves _ s

theorem setRoll_moves (r : Rollback) (p : RollPhase) (s : State) : s.Moves (setRoll r p s) :=
  setWork_moves _ s

theorem beginRestores_moves (r : Rollback) (s : State) : s.Moves (beginRestores r s) := by
  unfold beginRestores
  split
  · exact endRollback_moves _ _ _ _ s
  · exact setRoll_moves _ _ s

theorem advanceRollback_moves (r : Rollback) (data : Word) (s : State) :
    s.Moves (advanceRollback r data s) := by
  unfold advanceRollback
  split
  · split
    · exact setRoll_moves _ _ s
    · exact beginRestores_moves _ s
  · dsimp only
    repeat' split
    all_goals exact setRoll_moves _ _ s
  · split
    · exact setRoll_moves _ _ s
    · dsimp only
      split <;> exact setRoll_moves _ _ s
  · split
    · exact setRoll_moves _ _ s
    · exact voidDone_moves _ _ _ s

theorem withdrawOrder_moves (s : State) : s.Moves (withdrawOrder s) :=
  moves_of_same rfl rfl rfl rfl rfl

theorem beginOrdered_moves (s : State) : s.Moves (beginOrdered s) := by
  unfold beginOrdered
  split
  · exact .refl s
  · split
    · exact ((withdrawOrder_moves s).trans (setWork_moves _ _)).trans (beginRestores_moves _ _)
    · exact .refl s

/-! ### Drains and journal faults (Chapter 4) -/

theorem journalFault_moves (cause : Cause) (retract : Bool) (s : State) :
    s.Moves (journalFault cause retract s) := by
  have frozen : s.Moves (trigger cause .rollback (withdrawOrder ((faultOrder s).setEngine
      { (faultOrder s).engine with
        abandoned := some (faultOrder s).openGroup
        work := .rollingBack ((faultOrder s).faultRollback cause retract) }))) := by
    refine State.Moves.trans ?_ (trigger_moves _ _ _)
    refine State.Moves.trans ?_ (withdrawOrder_moves _)
    refine (faultOrder_moves s).trans ?_
    exact moves_of_same rfl rfl rfl rfl rfl
  unfold journalFault
  dsimp only
  split
  · exact frozen.trans (endRollback_moves _ _ _ _ _)
  · exact frozen

theorem setDrain_moves (d : Drain) (s : State) : s.Moves (setDrain d s) := setWork_moves _ s

theorem beginRecord_moves (image : List Word) (s : State) : s.Moves (beginRecord image s) := by
  unfold beginRecord
  split
  · exact journalFault_moves _ _ s
  · exact setDrain_moves _ s

theorem countRecord_moves (check : Word) (s : State) : s.Moves (countRecord check s) := by
  have counted : s.Moves (s.setEngine { s.engine with
      count := s.engine.count + 1, chain := check, work := .draining .apply }) :=
    moves_of_same rfl rfl rfl rfl rfl
  unfold countRecord
  dsimp only
  split
  · exact counted.trans (moves_count _ _)
  · exact counted

theorem settleSwitch_moves (sw : TableRef) (s : State) : s.Moves (settleSwitch sw s) :=
  moves_of_same rfl rfl rfl rfl rfl

theorem sealComplete_moves (s : State) : s.Moves (sealComplete s) := by
  have closed := closeGroup_moves s.openGroup s
  unfold sealComplete
  dsimp only
  refine State.Moves.trans ?_ (checkExhausted_moves _)
  refine State.Moves.trans ?_ (moves_count _ _)
  refine State.Moves.trans ?_ (moves_raise .groupSealed _ (by simp))
  refine State.Moves.trans ?_ (finishDrain_moves _)
  split
  · exact closed.trans (settleSwitch_moves _ _)
  · exact closed

theorem setTableResult_moves (outcome : TableOutcome) (origin : TableOrigin) (base : Long)
    (read index : Nat) (s : State) : s.Moves (setTableResult outcome origin base read index s) :=
  moves_of_same rfl rfl rfl rfl rfl

theorem endTableRead_moves (outcome : TableOutcome) (read index : Nat) (t : Table) (s : State) :
    s.Moves (endTableRead outcome read index t s) := by
  refine State.Moves.trans ?_ (finishDrain_moves _)
  refine State.Moves.trans ?_ (moves_raise _ _ (by cases outcome <;> simp))
  refine State.Moves.trans ?_ (setTableResult_moves _ _ _ _ _ _)
  exact moves_of_same rfl rfl rfl rfl rfl

theorem takeDescriptor_moves (kept : List Descriptor) (ws : List Word) (s : State) :
    s.Moves (takeDescriptor kept ws s) := by
  unfold takeDescriptor
  dsimp only
  split
  · exact endTableRead_moves _ _ _ _ s
  · split
    · split <;> exact endTableRead_moves _ _ _ _ s
    · split
      · exact endTableRead_moves _ _ _ _ s
      · exact setDrain_moves _ s

theorem advanceDrain_moves (d : Drain) (data : Word) (s : State) :
    s.Moves (advanceDrain d data s) := by
  cases d with
  | copy got =>
    simp only [advanceDrain]
    split
    · exact setDrain_moves _ s
    · exact beginRecord_moves _ s
  | record b =>
    simp only [advanceDrain]
    split
    · exact setDrain_moves _ s
    · exact journalFault_moves _ _ s
    · exact countRecord_moves _ s
  | apply => exact finishDrain_moves s
  | anchor b =>
    simp only [advanceDrain]
    split
    · exact setDrain_moves _ s
    · exact journalFault_moves _ _ s
    · exact sealComplete_moves s
  | tableRead got kept =>
    simp only [advanceDrain]
    split
    · exact setDrain_moves _ s
    · exact takeDescriptor_moves _ _ s

theorem takeHead_moves (s : State) : s.Moves (takeHead s) := by
  unfold takeHead
  split
  · exact .refl s
  · split
    · exact setDrain_moves _ s
    · exact .refl s

/-! ### The end of recovery and of Format (7.6, 9.3) -/

@[simp] theorem addCause_opState (c : Cause) (s : State) :
    (addCause c s).gate.opState = s.gate.opState := rfl

@[simp] theorem examineLine_opState (l : InputLine) (s : State) :
    (examineLine l s).gate.opState = s.gate.opState := by
  unfold examineLine
  split <;> rfl

@[simp] theorem recoverExhausted_opState (s : State) :
    (recoverExhausted s).gate.opState = s.gate.opState := by
  unfold recoverExhausted
  split <;> rfl

/-- The operating state moves to another than FROZEN. -/
theorem setOpState_upholds {o : OpState} (h : o ≠ .frozen) (s : State) :
    s.Upholds (setOpState o s) where
  pins := fun _ => by simp [State.PinsFollow, setOpState]
  queue := fun h => h
  filter := fun h => h
  lines := fun h => h
  settings := rfl
  events := .refl
  entry := fun _ enters => absurd enters h
  quiet := fun _ => .inr rfl

theorem raise_froze_upholds (s : State) : s.Upholds (raise .froze (setOpState .frozen s)) where
  pins := fun _ => by simp [State.PinsFollow, setOpState]
  queue := fun h => h
  filter := fun h => h
  lines := fun h => h
  settings := rfl
  events := .raise .froze .refl
  entry := fun _ _ => by simp
  quiet := fun _ => .inl (by simp [setOpState])

theorem examineLine_moves (l : InputLine) (s : State) : s.Moves (examineLine l s) := by
  unfold examineLine
  split
  · exact addCause_moves _ s
  · exact .refl s

theorem openGate_upholds (s : State) : s.Upholds (openGate s) := by
  refine ((examineLine_moves .pfail s).trans (examineLine_moves .fault _)).before (by simp) ?_
  unfold openGate
  dsimp only
  split
  · exact raise_froze_upholds _
  · exact setOpState_upholds (by simp) _

theorem endRecovery_upholds {r : Recovery} {outcome : RestoreOutcome} {gate : State → State}
    (h : ∀ s : State, s.Upholds (gate s)) (s : State) : s.Upholds (endRecovery r outcome gate s) := by
  refine State.Upholds.andThen ?_ (moves_raise .recovered _ (by simp))
  refine State.Upholds.andThen ?_ (moves_setEngine _ _)
  exact (fillReport_moves _ s).before (by simp) (h _)

theorem rejectStartUpTable_upholds (r : Recovery) (e : TableOutcome) (read index : Nat) (s : State) :
    s.Upholds (rejectStartUpTable r e read index s) :=
  (((setTableResult_moves _ _ _ _ _ s).trans (moves_raise .tableError _ (by simp))).trans
    (addCause_moves .table _)).before (by simp) (endRecovery_upholds openGate_upholds _)

theorem acceptStartUpTable_upholds (r : Recovery) (t : Table) (s : State) :
    s.Upholds (acceptStartUpTable r t s) := by
  refine State.Moves.before ?_ (by simp) (endRecovery_upholds openGate_upholds _)
  refine (setTableResult_moves .accepted .startUp t.base t.descs.length 0 s).trans ?_
  exact moves_of_same rfl rfl rfl rfl rfl

theorem setRec_moves (r : Recovery) (p : RecPhase) (s : State) : s.Moves (setRec r p s) :=
  setWork_moves _ s

theorem beginTableLoad_upholds (r : Recovery) (s : State) : s.Upholds (beginTableLoad r s) := by
  unfold beginTableLoad
  dsimp only
  split
  · exact (setTableResult_moves _ _ _ _ _ s).before (by simp) (endRecovery_upholds openGate_upholds _)
  · split
    · exact rejectStartUpTable_upholds _ _ _ _ s
    · split
      · exact rejectStartUpTable_upholds _ _ _ _ s
      · exact (setRec_moves _ _ s).toUpholds

theorem takeStartUpDescriptor_upholds (r : Recovery) (kept : List Descriptor) (ws : List Word)
    (s : State) : s.Upholds (takeStartUpDescriptor r kept ws s) := by
  unfold takeStartUpDescriptor
  dsimp only
  split
  · exact rejectStartUpTable_upholds _ _ _ _ s
  · split
    · split
      · exact rejectStartUpTable_upholds _ _ _ _ s
      · exact (setRec_moves _ _ s).toUpholds
    · split
      · exact rejectStartUpTable_upholds _ _ _ _ s
      · split
        · exact rejectStartUpTable_upholds _ _ _ _ s
        · exact acceptStartUpTable_upholds _ _ s

theorem endScan_upholds (r : Recovery) (found : Nat) (reason : StopReason) (s : State) :
    s.Upholds (endScan r found reason s) := by
  cases found with
  | zero => exact beginTableLoad_upholds _ s
  | succ j => exact (setRec_moves _ _ s).toUpholds

theorem scanSlot_upholds (r : Recovery) (j : Nat) (chain : Word) (ws : List Word) (s : State) :
    s.Upholds (scanSlot r j chain ws s) := by
  have counted := moves_setEngine { s.engine with count := BitVec.ofNat 16 (j + 1) } s
  unfold scanSlot
  split
  · dsimp only
    split
    · exact (counted.trans (setRec_moves _ _ _)).toUpholds
    · exact counted.before rfl (endScan_upholds _ _ _ _)
  all_goals exact endScan_upholds _ _ _ s

theorem nextRestore_moves (r : Recovery) (j : Nat) (s : State) : s.Moves (nextRestore r j s) := by
  cases j <;> exact setRec_moves _ _ s

theorem restoreSlot_moves (r : Recovery) (j : Nat) (ws : List Word) (s : State) :
    s.Moves (restoreSlot r j ws s) := by
  unfold restoreSlot
  split
  · exact setRec_moves _ _ s
  · exact nextRestore_moves _ _ s

theorem recoverExhausted_moves (s : State) : s.Moves (recoverExhausted s) := by
  unfold recoverExhausted
  split
  · exact addCause_moves _ s
  · exact .refl s

theorem recoveryVoided_upholds (r : Recovery) (s : State) : s.Upholds (recoveryVoided r s) := by
  refine State.Moves.before ?_ (by simp) (beginTableLoad_upholds r _)
  refine State.Moves.trans ?_ (recoverExhausted_moves _)
  refine State.Moves.trans ?_ (moves_count _ _)
  refine State.Moves.trans ?_ (moves_raise .voided _ (by simp))
  exact (closeGroup_moves s.openGroup s).trans (setGroup_moves _ _)

theorem decideRecovery_upholds (r : Recovery) (ws0 ws1 : List Word) (s : State) :
    s.Upholds (decideRecovery r ws0 ws1 s) := by
  unfold decideRecovery
  dsimp only
  split
  · exact endRecovery_upholds (setOpState_upholds (by simp)) s
  · exact (addCause_moves _ s).before rfl (endRecovery_upholds openGate_upholds _)
  · next idx a _ =>
    have settled := ((moves_setEngine { s.engine with closed := a.group, durable := a.durable } s).trans
      (setGroup_moves (s.setEngine { s.engine with
        closed := a.group, durable := a.durable }).openGroup _)).trans (recoverExhausted_moves _)
    split
    · exact settled.before (by simp) (beginTableLoad_upholds _ _)
    · exact (settled.trans (setRec_moves _ _ _)).toUpholds

theorem advanceRecovery_upholds (r : Recovery) (data : Word) (s : State) :
    s.Upholds (advanceRecovery r data s) := by
  have point : ∀ p, s.Upholds (setRec r p s) := fun p => (setRec_moves r p s).toUpholds
  unfold advanceRecovery
  dsimp only
  split
  · split
    · exact point _
    · exact decideRecovery_upholds _ _ _ s
  · split
    · exact point _
    · exact scanSlot_upholds _ _ _ _ s
  · split
    · exact point _
    · exact (restoreSlot_moves _ _ _ s).toUpholds
  · split
    · exact point _
    · exact (nextRestore_moves _ _ s).toUpholds
  · split
    · exact point _
    · exact recoveryVoided_upholds _ s
  · split
    · exact point _
    · exact takeStartUpDescriptor_upholds _ _ _ s

theorem setFormat_moves (f : Format) (p : FormatPhase) (s : State) : s.Moves (setFormat f p s) :=
  setWork_moves _ s

theorem endFormat_upholds (f : Format) (s : State) : s.Upholds (endFormat f s) := by
  refine State.Upholds.andThen ?_ (moves_raise .formatted _ (by simp))
  refine State.Upholds.andThen ?_ (setWork_moves .idle _)
  refine State.Moves.before ?_ (by simp) (openGate_upholds _)
  refine State.Moves.trans ?_ (setGroup_moves 1 _)
  exact (closeGroup_moves 0 s).trans (moves_setEngine _ _)

theorem failFormat_upholds (s : State) : s.Upholds (failFormat s) := by
  refine State.Upholds.andThen ?_ (setWork_moves .idle _)
  refine State.Moves.before ?_ (by simp) (setOpState_upholds (by simp) _)
  refine State.Moves.trans ?_ (setGroup_moves 1 _)
  exact (closeGroup_moves 0 s).trans (moves_setEngine _ _)

theorem advanceFormat_upholds (f : Format) (data : Word) (s : State) :
    s.Upholds (advanceFormat f data s) := by
  have point : ∀ f p, s.Upholds (setFormat f p s) := fun f p => (setFormat_moves f p s).toUpholds
  unfold advanceFormat
  dsimp only
  split
  · split <;> exact point _ _
  · split <;> exact point _ _
  · split <;> exact point _ _
  · split
    · exact point _ _
    · exact endFormat_upholds f s
    · exact point _ _
  · split
    · exact point _ _
    · exact failFormat_upholds s

theorem advanceEngine_upholds (data : Word) (s : State) : s.Upholds (advanceEngine data s) := by
  unfold advanceEngine
  split
  · exact (State.Moves.refl s).toUpholds
  · exact (advanceDrain_moves _ data s).toUpholds
  · exact (advanceRollback_moves _ data s).toUpholds
  · exact advanceRecovery_upholds _ data s
  · exact advanceFormat_upholds _ data s

/-- Outside recovery and Format no access opens the gate. -/
theorem advanceEngine_moves {s : State} (recovery : s.engine.work.isRecovering = false)
    (format : s.engine.work.isFormatting = false) (data : Word) : s.Moves (advanceEngine data s) := by
  unfold advanceEngine
  split
  · exact .refl s
  · exact advanceDrain_moves _ data s
  · exact advanceRollback_moves _ data s
  · next work => simp [work, Work.isRecovering] at recovery
  · next work => simp [work, Work.isFormatting] at format

end Sys2Proof.Machine
end

section
/-! PROOFS. What every command upholds, and the invariants of the lines, the queue, the line filter, the current
cycle and ATTN that follow. -/

namespace Sys2Proof.Machine

/-! ### Cycles and accesses (Chapter 2) -/

/-- A refusal behind a comparison, with the trigger of a FREEZE outcome. -/
theorem refuse_compared_moves (o : Option WatchAction) (a : Addr) (d : Direction) (why : Reason)
    (tag : Word) (held : Four WatchSettings) (seen : WatchCapture) (s : State) :
    s.Moves (watchTrigger o (refuse a d why tag (compareAll held seen s))) :=
  ((compareAll_moves held seen s).trans (refuse_moves a d why tag _)).trans (watchTrigger_moves o _)

theorem takeRead_moves (a : Addr) (s : State) : s.Moves (takeRead a s) := by
  obtain ⟨x, e⟩ | ⟨x, o, held, seen, tag, e⟩ | ⟨x, timer, holds, e⟩ := takeRead_cases a s <;> rw [e]
  · exact (openCycle_moves s).trans (refuse_moves _ _ _ _ _)
  · exact (openCycle_moves s).trans (refuse_compared_moves _ _ _ _ _ _ _ _)
  · exact (openCycle_moves s).trans (holdCycle_moves holds _)

theorem takeWrite_moves (a : Addr) (data : Word) (lanes : Lanes) (s : State) :
    s.Moves (takeWrite a data lanes s) := by
  obtain ⟨x, e⟩ | ⟨x, o, held, seen, why, tag, e⟩ | ⟨x, held, seen, space, -, -, e⟩ |
    ⟨x, timer, held, seen, runs, waits, e⟩ := takeWrite_cases a data lanes s <;> rw [e]
  · exact (openCycle_moves s).trans (refuse_moves _ _ _ _ _)
  · exact (openCycle_moves s).trans (refuse_compared_moves _ _ _ _ _ _ _ _)
  · refine ((openCycle_moves s).trans (compareAll_moves held seen _)).trans (acceptWrite_moves ?_ _ _ _ _)
    simpa [State.hasSpace] using space
  · refine ((openCycle_moves s).trans (compareAll_moves held seen _)).trans (holdCycle_moves ?_ _)
    simp [runs, waits]

theorem expireHold_moves (c : Cycle) (s : State) : s.Moves (expireHold c s) := by
  obtain e | ⟨o, held, seen, e⟩ | e := expireHold_cases c s <;> rw [e]
  · exact refuse_moves _ _ _ _ s
  · exact refuse_compared_moves _ _ _ _ _ _ _ s
  · exact .refl s

theorem finishRead_moves (data : Word) (s : State) : s.Moves (finishRead data s) := by
  obtain e | ⟨c, o, held, seen, e⟩ | ⟨w, held, seen, e⟩ := finishRead_cases data s <;> rw [e]
  · exact .refl s
  · exact refuse_compared_moves _ _ _ _ _ _ _ s
  · exact (compareAll_moves held seen s).trans (answerRead_moves w _)

theorem holdRead_moves (s : State) : s.Moves (holdRead s) := by
  unfold holdRead
  split
  · exact .refl s
  · next c current =>
    split
    · exact moves_of_lines rfl rfl rfl (fun ⟨wait, _⟩ => ⟨wait.trans (by simp [current]), rfl⟩) rfl
    · exact .refl s

theorem arbitrate_moves (s : State) : s.Moves (arbitrate s) := by
  unfold arbitrate
  repeat' split
  all_goals exact moves_of_same rfl rfl rfl rfl rfl

theorem grantAccess_moves (s : State) : s.Moves (arbitrate (holdRead (startWork s))) :=
  (((beginOrdered_moves s).trans (takeHead_moves _)).trans (holdRead_moves _)).trans (arbitrate_moves _)

/-- Memory has answered, and the port is free. -/
theorem freePort_moves (m : Memory) (s : State) :
    s.Moves ((s.setMem m).setPort { (s.setMem m).port with access := none }) :=
  moves_of_same rfl rfl rfl rfl rfl

theorem completeAccess_upholds (o : Owner) (a : Access) (answer : Option Word) (s : State) :
    s.Upholds (completeAccess o a answer s) := by
  have answered := freePort_moves (s.memAfter a answer) s
  cases o with
  | upstream => exact (answered.trans (finishRead_moves _ _)).toUpholds
  | engine => exact answered.before rfl (advanceEngine_upholds _ _)

/-- In FROZEN no access completes of a recovery or a Format. -/
theorem completeAccess_moves {s : State} (modes : s.ModesAgree) (frozen : s.gate.opState = .frozen)
    (o : Owner) (a : Access) (answer : Option Word) : s.Moves (completeAccess o a answer s) := by
  have answered := freePort_moves (s.memAfter a answer) s
  cases o with
  | upstream => exact answered.trans (finishRead_moves _ _)
  | engine =>
    obtain ⟨recovery, format, -⟩ := modes
    have outside : s.engine.work.isRecovering = false ∧ s.engine.work.isFormatting = false := by
      constructor <;> simp_all
    exact answered.trans (advanceEngine_moves (by exact outside.1) (by exact outside.2) _)

/-! ### SET (10.4) -/

theorem maskTriggers_moves (pfail fault : Bool) (s : State) : s.Moves (maskTriggers pfail fault s) := by
  unfold maskTriggers
  split
  · exact .refl s
  · exact lineTrigger_moves _ s
  · exact lineTrigger_moves _ s
  · have drawn : s.Moves (drawFree s) :=
      moves_of_same rfl rfl rfl rfl rfl
    dsimp only
    split
    · exact (drawn.trans (lineTrigger_moves _ _)).trans (lineTrigger_moves _ _)
    · exact (drawn.trans (lineTrigger_moves _ _)).trans (lineTrigger_moves _ _)

/-- Every setting but EVENT ENABLES and ATTN MODE reaches ATTN by the raising of events alone. -/
theorem settingEffect_moves {x : Setting} (enables : x ≠ .enables) (mode : x ≠ .attnMode)
    (before s : State) : s.Moves (settingEffect x before s) := by
  cases x with
  | faultPolarity => exact setInput_moves .fault _ s
  | freezeMask => exact maskTriggers_moves _ _ s
  | scope => exact refuseWaiting_moves s
  | enables => exact absurd rfl enables
  | attnMode => exact absurd rfl mode
  | _ => exact .refl s

/-! ### What a command can do -/

/-- The ways a command changes the state: what the operations uphold, a reset, a SET, and the commands that reach
ATTN by themselves. -/
inductive Change (c : Instr) (s : State) : State → Prop
  | upheld {t : State} (h : s.Upholds t)
      (still : s.ModesAgree → s.gate.opState = .frozen → t.flagged .froze = s.flagged .froze) :
      Change c s t
  | reset (straps : Straps) (csnLow : Bool) (mem : Memory) (free : Nat) (pending : List Instr) :
      Change c s (State.afterReset straps csnLow mem free pending)
  | set {t : State} (x : Setting) (v : Word) (enables : x ≠ .enables) (mode : x ≠ .attnMode)
      (h : (x.store v s).Moves t) : Change c s t
  | enables (v : Word) (l : Link) (accepted : Setting.enables.accepts v = true)
      (new : Setting.enables.read s ≠ v) :
      Change c s (((Setting.enables.store v s).setEvents (s.events.enablesSet
        (Setting.enables.store v s).settings s.settings.enables)).setLink l)
  | mode (v : Word) (l : Link) (accepted : Setting.attnMode.accepts v = true)
      (new : Setting.attnMode.read s ≠ v) :
      Change c s (((Setting.attnMode.store v s).setEvents (s.events.modeChanged
        (Setting.attnMode.store v s).settings)).setLink l)
  | clears (mask : Word) (l : Link) (command : c = .clearEvents mask) :
      Change c s ((s.setEvents (s.events.clear s.settings (mask.extractLsb' 0 13))).setLink l)
  | pulseEnds (command : c = .attnPulseEnd) (timed : s.events.pulse ≠ none) :
      Change c s (s.setEvents { s.events with attn := false, pulse := none })

theorem change_of_moves {c : Instr} {s t : State} (h : s.Moves t) : Change c s t :=
  .upheld h.toUpholds fun _ frozen => (h.frozen frozen).2

theorem change_of_linkEffect {c : Instr} {s u : State} (h : LinkEffect c s u) (l : Link) :
    Change c s (u.setLink l) := by
  have linked : ∀ {u : State}, s.Moves u → Change c s (u.setLink l) :=
    fun h => change_of_moves (h.trans (moves_setLink l _))
  cases h with
  | nothing => exact linked (.refl s)
  | commit => exact linked ((claimFirst_moves s).trans (takeCommit_moves _))
  | loadTable base gate space =>
    have pending : (claimFirst s).Moves ((claimFirst s).setRegion
      { (claimFirst s).region with state := .pending base }) :=
      moves_of_same rfl rfl rfl rfl rfl
    refine linked (((claimFirst_moves s).trans pending).trans (appendEntry_moves ?_ _))
    exact space
  | thaw row =>
    have cleared : s.Moves (s.setGate { s.gate with causes := noCauses, level := .none }) :=
      moves_of_same rfl rfl rfl rfl rfl
    have opened := cleared.before rfl (setOpState_upholds (o := .running) (by simp) _)
    exact .upheld (opened.andThen (moves_setLink l _)) fun _ _ => rfl
  | rollback frozen =>
    exact linked (((stopOrder_moves s).trans (placeOrder_moves _ _)).trans (setLevel_moves _ _))
  | freeze a => exact linked (trigger_moves _ _ s)
  | format base slots permitted free =>
    have cleared : s.Moves (s.setGate { s.gate with causes := noCauses, level := .none }) :=
      moves_of_same rfl rfl rfl rfl rfl
    have closed := cleared.before rfl (setOpState_upholds (o := .formatting) (by simp) _)
    have begun : s.Upholds (beginFormat base slots s) := by
      refine State.Upholds.andThen ?_ (moves_cleared rfl rfl)
      refine State.Upholds.andThen ?_ (moves_setRegion _ _)
      exact closed.andThen (moves_setEngine _ _)
    exact .upheld (begun.andThen (moves_setLink l _)) fun _ _ => by simp [State.flagged]
  | set x v accepted new =>
    by_cases enables : x = .enables
    · subst enables
      exact .enables v l accepted new
    · by_cases mode : x = .attnMode
      · subst mode
        exact .mode v l accepted new
      · exact .set x v enables mode ((settingEffect_moves enables mode s _).trans (moves_setLink l _))
  | clearEvents mask command => exact .clears mask l command
  | clearCounters => exact linked (moves_of_same rfl rfl rfl rfl rfl)
  | clearWatch n => exact linked (moves_setWatch _ s)

/-- Every command changes the state in one of these ways. -/
theorem change_of_exec {c : Instr} {s t : State} (h : exec c s = .next t) : Change c s t := by
  cases effect_of_exec h with
  | nothing => exact change_of_moves (.refl s)
  | link l effect => exact change_of_linkEffect effect l
  | reset msize maint command => exact .reset _ _ _ _ _
  | read a free => exact change_of_moves (takeRead_moves a s)
  | write a data lanes free => exact change_of_moves (takeWrite_moves a data lanes s)
  | noLanes free => exact change_of_moves (openCycle_moves s)
  | claim => exact change_of_moves (claimFirst_moves s)
  | pendingToken held space work =>
    have dropped : s.Moves (s.setIntake { s.intake with pendingCommit := false }) :=
      moves_of_same rfl rfl rfl rfl rfl
    refine change_of_moves (dropped.trans (makeToken_moves ?_))
    exact space
  | pendingDropped auto => exact change_of_moves (moves_of_same rfl rfl rfl rfl rfl)
  | expire current => exact change_of_moves (expireHold_moves _ s)
  | grant free => exact change_of_moves (grantAccess_moves s)
  | complete answer command access =>
    exact .upheld (completeAccess_upholds _ _ answer s) fun modes frozen =>
      ((completeAccess_moves modes frozen _ _ answer).frozen frozen).2
  | takeHead => exact change_of_moves (takeHead_moves s)
  | begins => exact change_of_moves (beginOrdered_moves s)
  | sealEdge =>
    have stored : s.Moves (storeSeal true s) :=
      moves_of_same rfl rfl rfl rfl rfl
    exact change_of_moves ((stored.trans (claimFirst_moves _)).trans (takeCommit_moves _))
  | samples level pfail fault => exact change_of_moves (moves_of_same rfl rfl rfl rfl rfl)
  | lineTrigger l n =>
    exact change_of_moves ((setInput_moves l _ s).trans (lineTrigger_moves l _))
  | tick auto x => exact change_of_moves (moves_of_same rfl rfl rfl rfl rfl)
  | auto => exact change_of_moves ((claimFirst_moves s).trans (takeAuto_moves _))
  | pulseEnd command timed => exact .pulseEnds command timed
  | chipSelect => exact change_of_moves (moves_of_same rfl rfl rfl rfl rfl)

/-! ### Invariants of the lines, the queue, the line filter and the current cycle -/

/-- A property that is upheld, that a reset gives, and that settings and events do not bear on, is kept by every
command. -/
theorem exec_keeps {P : State → Prop} (upheld : ∀ {s t : State}, s.Upholds t → P s → P t)
    (reset : ∀ straps csnLow mem free pending, P (State.afterReset straps csnLow mem free pending))
    (store : ∀ x v s, P s → P (Setting.store x v s)) (events : ∀ s ev l, P s → P ((s.setEvents ev).setLink l))
    {c : Instr} {s t : State} (hs : P s) (h : exec c s = .next t) : P t := by
  cases change_of_exec h with
  | upheld h => exact upheld h hs
  | reset straps csnLow mem free pending => exact reset _ _ _ _ _
  | set x v _ _ h => exact upheld h.toUpholds (store x v s hs)
  | enables v l => exact events _ _ l (store _ v s hs)
  | mode v l => exact events _ _ l (store _ v s hs)
  | clears mask l => exact events _ _ l hs
  | pulseEnds => exact events s { s.events with attn := false, pulse := none } s.link hs

theorem exec_keeps_pinsFollow {c : Instr} {s t : State} (hs : s.PinsFollow) (h : exec c s = .next t) :
    t.PinsFollow :=
  exec_keeps (P := State.PinsFollow) (fun h => h.pins) (fun _ _ _ _ _ => ⟨rfl, rfl⟩)
    (fun x v s h => by simpa [State.PinsFollow] using h) (fun _ _ _ h => h) hs h

/-- Settles O7: FRZ and READY are written only together with the operating state. -/
theorem stepKeepsPins : Obligations.StepKeepsPins := by
  intro s t hs h
  exact step_keeps (P := State.PinsFollow) (fun _ _ _ h => h) (fun _ _ h => h) (fun _ h => h)
    (fun _ _ _ => exec_keeps_pinsFollow) hs h

/-- Settles O8: an entry is appended only where one of the 16 is free. -/
theorem stepKeepsQueueFits : Obligations.StepKeepsQueueFits := by
  intro s t hs h
  exact step_keeps (P := State.QueueFits) (fun _ _ _ h => h) (fun _ _ h => h) (fun _ h => h)
    (fun _ _ _ => exec_keeps (P := State.QueueFits) (fun h => h.queue)
      (fun _ _ _ _ _ => Nat.zero_le 16) (fun x v s h => by simpa [State.QueueFits] using h)
      (fun _ _ _ h => h)) hs h

/-- Settles O9: the lookup of a line keeps the filter and the removed-line list sound, and all else that
writes them clears both. -/
theorem stepKeepsFilterSound : Obligations.StepKeepsFilterSound := by
  intro s t hs h
  exact step_keeps (P := State.FilterSound) (fun _ _ _ h => h) (fun _ _ h => h) (fun _ h => h)
    (fun _ _ _ => exec_keeps (P := State.FilterSound) (fun h => h.filter)
      (fun _ _ _ _ _ => ⟨Nat.zero_le 64, .nil, .nil, rfl⟩)
      (fun x v s h => by simpa [State.FilterSound] using h) (fun _ _ _ h => h)) hs h

/-- Settles O11: the timer is started and stopped together with the hold of the current cycle, and only counts
between. -/
theorem stepKeepsCycleLines : Obligations.StepKeepsCycleLines := by
  intro s t hs h
  exact step_keeps (P := State.CycleLinesFollow) (fun _ _ _ h => h) (fun _ _ h => h)
    (fun s h => ⟨h.1, Option.isSome_map.trans h.2⟩)
    (fun _ _ _ => exec_keeps (P := State.CycleLinesFollow) (fun h => h.lines)
      (fun _ _ _ _ _ => ⟨rfl, rfl⟩) (fun x v s h => by simpa [State.CycleLinesFollow] using h)
      (fun _ _ _ h => h)) hs h

/-! ### FROZE (6.5) -/

theorem Events.enablesSet_flags (ev : Events) (cfg : Settings) (old : BitVec 13) :
    (ev.enablesSet cfg old).flags = ev.flags := by
  unfold Events.enablesSet
  repeat' split
  all_goals rfl

theorem Events.modeChanged_flags (ev : Events) (cfg : Settings) :
    (ev.modeChanged cfg).flags = ev.flags := by
  unfold Events.modeChanged
  split <;> rfl

theorem Events.clear_flags (ev : Events) (cfg : Settings) (mask : BitVec 13) :
    (ev.clear cfg mask).flags = ev.flags &&& ~~~ mask := by
  unfold Events.clear
  dsimp only
  repeat' split
  all_goals rfl

/-- Where neither the operating state nor FROZE changes, but that FROZE may be cleared, there is nothing to raise. -/
theorem froze_of_same_gate {s t : State} (gate : t.gate.opState = s.gate.opState)
    (flag : s.flagged .froze = false → t.flagged .froze = false) :
    (s.gate.opState ≠ .frozen → t.gate.opState = .frozen → t.flagged .froze = true) ∧
    (s.gate.opState = .frozen ∨ t.gate.opState ≠ .frozen → s.flagged .froze = false →
      t.flagged .froze = false) :=
  ⟨fun outside enters => absurd (gate ▸ enters) outside, fun _ => flag⟩

/-- Where the operations uphold it and FROZE is left alone in FROZEN, it is raised exactly at the entry. -/
theorem froze_of_upholds {s t : State} (h : s.Upholds t)
    (still : s.gate.opState = .frozen → t.flagged .froze = s.flagged .froze) :
    (s.gate.opState ≠ .frozen → t.gate.opState = .frozen → t.flagged .froze = true) ∧
    (s.gate.opState = .frozen ∨ t.gate.opState ≠ .frozen → s.flagged .froze = false →
      t.flagged .froze = false) := by
  refine ⟨h.entry, fun outside clear => ?_⟩
  by_cases frozen : s.gate.opState = .frozen
  · rw [still frozen, clear]
  · rw [(h.quiet frozen).resolve_left (outside.resolve_left frozen), clear]

/-- Settles O16: FROZE is raised with the move to FROZEN, and CLEAR EVENTS and a reset only clear it. -/
theorem frozeAtEntry : Obligations.FrozeAtEntry := by
  intro c s t modes pins h
  refine ⟨(exec_keeps_pinsFollow pins h).1, ?_⟩
  cases change_of_exec h with
  | upheld h still => exact froze_of_upholds h (still modes)
  | reset straps csnLow mem free pending =>
    exact ⟨fun _ enters => OpState.noConfusion enters, fun _ _ => by simp [State.flagged, State.afterReset]⟩
  | set x v _ _ h =>
    have stored := froze_of_upholds h.toUpholds fun frozen => (h.frozen frozen).2
    simpa [State.flagged] using stored
  | enables v l =>
    refine froze_of_same_gate rfl fun clear => ?_
    simpa [State.flagged, Events.enablesSet_flags] using clear
  | mode v l =>
    refine froze_of_same_gate rfl fun clear => ?_
    simpa [State.flagged, Events.modeChanged_flags] using clear
  | clears mask l =>
    refine froze_of_same_gate rfl fun clear => ?_
    simp only [State.flagged] at clear
    simp [State.flagged, Events.clear_flags, clear]
  | pulseEnds => exact froze_of_same_gate rfl fun clear => clear

/-! ### ATTN (11.3) -/

/-- In LEVEL mode raising events keeps ATTN at the level of the enabled flags. -/
theorem Events.Raised.level {cfg : Settings} {a b : Events} (h : a.Raised cfg b)
    (mode : cfg.attnMode = .level) (attn : a.attn = decide (a.flags &&& cfg.enables ≠ 0)) :
    b.pulse = a.pulse ∧ b.attn = decide (b.flags &&& cfg.enables ≠ 0) := by
  induction h with
  | refl => exact ⟨rfl, attn⟩
  | raise e _ ih => rw [Events.raise_level _ _ _ mode]; exact ⟨ih.1, rfl⟩
  | rest _ flags attn pulse ih => rw [flags, attn, pulse]; exact ih

/-- In PULSE mode raising events makes a pulse request, if it sets an enabled flag that was clear, and else
leaves ATTN and the pulse (R180 case 1). -/
theorem Events.Raised.pulse {cfg : Settings} {a b : Events} (h : a.Raised cfg b)
    (mode : cfg.attnMode = .pulse) :
    ((∃ e : Event, a.flags.getLsbD e.bit = false ∧ b.flags.getLsbD e.bit = true ∧
        cfg.enables.getLsbD e.bit = true) ∧ b.attn = true ∧ b.pulse = some cfg.attnWidth.toNat) ∨
    ((∀ e : Event, a.flags.getLsbD e.bit = false → b.flags.getLsbD e.bit = true →
        cfg.enables.getLsbD e.bit = false) ∧ b.attn = a.attn ∧ b.pulse = a.pulse) := by
  induction h with
  | refl => exact .inr ⟨fun e clear set => (Bool.false_ne_true (clear.symm.trans set)).elim, rfl, rfl⟩
  | @raise b e before ih =>
    have flag : ∀ f : Event, (b.flags ||| e.mask).getLsbD f.bit =
        (b.flags.getLsbD f.bit || decide (f = e)) := fun f => by
      rw [BitVec.getLsbD_or, Event.mask_bit]
    by_cases request : b.flags.getLsbD e.bit = false ∧ cfg.enables.getLsbD e.bit = true
    · obtain ⟨clear, enabled⟩ := request
      rw [Events.raise_request _ _ _ mode clear enabled]
      refine .inl ⟨⟨e, ?_, by simp [flag], enabled⟩, rfl, rfl⟩
      exact Bool.eq_false_iff.2 fun set => by simp [before.mono e set] at clear
    · have silent : b.flags.getLsbD e.bit = true ∨ cfg.enables.getLsbD e.bit = false := by
        simpa [-not_and, not_and_or] using request
      rw [Events.raise_silent _ _ _ mode silent]
      obtain ⟨⟨f, clear, set, enabled⟩, attn, pulse⟩ | ⟨none_, attn, pulse⟩ := ih
      · exact .inl ⟨⟨f, clear, by simp [flag, set], enabled⟩, attn, pulse⟩
      · refine .inr ⟨fun f clear set => ?_, attn, pulse⟩
        obtain set | rfl := by simpa [flag] using set
        · exact none_ f clear set
        · exact silent.elim (none_ f clear) id
  | rest _ flags attn pulse ih => rw [flags, attn, pulse]; exact ih

theorem attnFollows_level {s : State} (mode : s.settings.attnMode = .level) :
    s.attnFollows = true ↔ s.events.pulse = none ∧
      s.events.attn = decide (s.events.flags &&& s.settings.enables ≠ 0) := by
  simp [State.attnFollows, mode]

theorem attnFollows_pulse {s : State} (mode : s.settings.attnMode = .pulse) :
    s.attnFollows = true ↔ s.events.attn = s.events.pulse.isSome := by
  simp [State.attnFollows, mode]

theorem raised_keeps_attnFollows {s t : State} (settings : t.settings = s.settings)
    (h : s.events.Raised s.settings t.events) (hs : s.attnFollows = true) : t.attnFollows = true := by
  cases mode : s.settings.attnMode with
  | level =>
    rw [attnFollows_level mode] at hs
    rw [attnFollows_level (settings ▸ mode), settings]
    obtain ⟨pulse, attn⟩ := h.level mode hs.2
    exact ⟨pulse.trans hs.1, attn⟩
  | pulse =>
    rw [attnFollows_pulse mode] at hs
    rw [attnFollows_pulse (settings ▸ mode)]
    obtain ⟨-, attn, pulse⟩ | ⟨-, attn, pulse⟩ := h.pulse mode <;> rw [attn, pulse]
    · rfl
    · exact hs

theorem clear_keeps_attnFollows {s : State} (mask : BitVec 13) (hs : s.attnFollows = true) :
    (s.setEvents (s.events.clear s.settings mask)).attnFollows = true := by
  cases mode : s.settings.attnMode with
  | level =>
    have cleared : s.events.clear s.settings mask =
        { s.events with flags := s.events.flags &&& ~~~ mask }.level s.settings := by
      simp [Events.clear, mode]
    rw [cleared, attnFollows_level (by exact mode)]
    exact ⟨((attnFollows_level mode).1 hs).1, rfl⟩
  | pulse =>
    rw [attnFollows_pulse mode] at hs
    rw [attnFollows_pulse (by exact mode)]
    simp only [State.setEvents_events, Events.clear, mode]
    split
    · rfl
    · exact hs

theorem enablesSet_keeps_attnFollows {s : State} {cfg : Settings} (mode : cfg.attnMode = s.settings.attnMode)
    (old : BitVec 13) (hs : s.attnFollows = true) :
    ((s.setSettings cfg).setEvents (s.events.enablesSet cfg old)).attnFollows = true := by
  cases level : s.settings.attnMode with
  | level =>
    have taken : s.events.enablesSet cfg old = s.events.level cfg := by
      simp [Events.enablesSet, mode, level]
    rw [taken, attnFollows_level (by exact mode.trans level)]
    exact ⟨((attnFollows_level level).1 hs).1, rfl⟩
  | pulse =>
    rw [attnFollows_pulse level] at hs
    rw [attnFollows_pulse (by exact mode.trans level)]
    simp only [State.setEvents_events, Events.enablesSet, mode, level]
    split
    · rfl
    · exact hs

theorem modeChanged_attnFollows (cfg : Settings) (s : State) :
    ((s.setSettings cfg).setEvents (s.events.modeChanged cfg)).attnFollows = true := by
  cases mode : cfg.attnMode <;> simp [State.attnFollows, mode, Events.modeChanged, Events.level]

/-- A SET of another setting changes neither the mode nor the enables. -/
theorem store_attn {x : Setting} (enables : x ≠ .enables) (mode : x ≠ .attnMode) (v : Word) (s : State) :
    (x.store v s).settings.enables = s.settings.enables ∧
    (x.store v s).settings.attnMode = s.settings.attnMode := by
  cases x <;> simp_all [Setting.store, Setting.storeIn]

theorem exec_keeps_attnFollows {c : Instr} {s t : State} (hs : s.attnFollows = true)
    (h : exec c s = .next t) : t.attnFollows = true := by
  cases change_of_exec h with
  | upheld h => exact raised_keeps_attnFollows h.settings h.events hs
  | reset straps csnLow mem free pending =>
    simp [State.attnFollows, State.afterReset, resetSettings]
  | set x v enables mode h =>
    refine raised_keeps_attnFollows h.settings h.events ?_
    obtain ⟨same, level⟩ := store_attn enables mode v s
    have events : (x.store v s).events = s.events := by simp
    simpa [State.attnFollows, same, level, events] using hs
  | enables v l =>
    exact enablesSet_keeps_attnFollows (s := s) (cfg := Setting.enables.storeIn v s.settings) rfl _ hs
  | mode v l => exact modeChanged_attnFollows _ s
  | clears mask l => exact clear_keeps_attnFollows _ hs
  | pulseEnds command timed =>
    cases mode : s.settings.attnMode with
    | level => exact absurd ((attnFollows_level mode).1 hs).1 timed
    | pulse => exact (attnFollows_pulse (by exact mode)).2 rfl

theorem exec_requests_pulse {c : Instr} {s t : State} (h : exec c s = .next t)
    (clears : ∀ m, c ≠ .clearEvents m) (ends : c ≠ .attnPulseEnd) (before : s.settings.attnMode = .pulse)
    (after : t.settings.attnMode = .pulse) (width : t.settings.attnWidth = s.settings.attnWidth)
    (enables : t.settings.enables = s.settings.enables) :
    s.events.Raised t.settings t.events := by
  cases change_of_exec h with
  | upheld h => exact h.settings ▸ h.events
  | reset straps csnLow mem free pending => cases after
  | set x v _ _ h =>
    have events : (x.store v s).events = s.events := by simp
    rw [h.settings, ← events]
    exact h.events
  | enables v l accepted new =>
    have stored := setting_read_store_same .enables v s accepted
    refine absurd (Eq.trans ?_ stored) new
    exact congrArg (BitVec.zeroExtend 16) enables.symm
  | mode v l accepted new =>
    have stored := setting_read_store_same .attnMode v s accepted
    refine absurd (Eq.trans ?_ stored) new
    have after : (Setting.attnMode.store v s).settings.attnMode = .pulse := after
    simp only [Setting.read, before, after]
  | clears mask l command => exact absurd command (clears mask)
  | pulseEnds command => exact absurd command ends

/-- Settles O13: ATTN and the pulse are written by the raising of events, and by CLEAR EVENTS, a SET of mode
or enables, the end of a pulse and a reset. -/
theorem stepKeepsAttn : Obligations.StepKeepsAttn := by
  constructor
  · intro s t hs h
    refine step_keeps (P := fun s => s.attnFollows = true) (fun _ _ _ h => h) (fun _ _ h => h)
      (fun s h => ?_) (fun _ _ _ => exec_keeps_attnFollows) hs h
    cases mode : s.settings.attnMode with
    | level =>
      have hs := (attnFollows_level mode).1 h
      exact (attnFollows_level (by exact mode)).2 ⟨congrArg (Option.map Nat.pred) hs.1, hs.2⟩
    | pulse =>
      have hs := (attnFollows_pulse mode).1 h
      exact (attnFollows_pulse (by exact mode)).2 (hs.trans Option.isSome_map.symm)
  · intro c s t h clears ends before after width enables
    have raised := (exec_requests_pulse h clears ends before after width enables).pulse after
    rw [enables, width] at raised
    obtain ⟨⟨e, clear, set, enabled⟩, attn, pulse⟩ | ⟨none_, attn, pulse⟩ := raised
    · exact ⟨fun _ => ⟨attn, pulse⟩, fun silent => by simp [silent e clear set] at enabled⟩
    · refine ⟨?_, fun _ => ⟨attn, pulse⟩⟩
      rintro ⟨e, clear, set, enabled⟩
      simp [none_ e clear set] at enabled

end Sys2Proof.Machine
end

section
/-! PROOFS. The agreement of the operating state with engine, queue, causes and order, and of the group numbers:
the modes, and what the gate and Intake carry from one state to the next. -/

namespace Sys2Proof.Machine

/-! ### The begun head (4.1) -/

/-- The entry is of the kind that a stage drains (R65). -/
def Drain.drains (d : Drain) (e : Entry) : Bool :=
  match d with
  | .copy _ => e.isJournaled
  | .record _ => e.isJournaled
  | .apply => match e with
    | .write _ => true
    | .sealToken _ _ | .tableToken _ => false
  | .anchor _ => e.isSeal
  | .tableRead _ _ => match e with
    | .tableToken _ => true
    | .write _ | .sealToken _ _ => false

/-- A draining engine has begun a head of its stage's kind. -/
theorem headFits_iff (s : State) :
    s.headFits = true ↔ ∀ d, s.engine.work = .draining d →
      ∃ e q, s.queue.entries = e :: q ∧ d.drains e = true := by
  unfold State.headFits
  cases hw : s.engine.work with
  | draining d =>
    cases hq : s.queue.entries with
    | nil => cases d <;> simp
    | cons e q => cases d <;> cases e <;> simp [Drain.drains]
  | _ => simp

theorem headFits_of_not_draining {s : State} (h : ∀ d, s.engine.work ≠ .draining d) :
    s.headFits = true :=
  (headFits_iff s).2 fun d hd => absurd hd (h d)

/-! ### The modes (R102) -/

/-- The engine neither recovers nor formats, and its begun head fits. -/
structure State.Fits (s : State) : Prop where
  recovery : s.engine.work.isRecovering = false
  format : s.engine.work.isFormatting = false
  head : s.headFits = true

/-- Queue, pending commit, level and order as recovery and Format find them. -/
structure State.Quiet (s : State) : Prop where
  queue : s.queue.entries = []
  pending : s.intake.pendingCommit = false
  level : s.gate.level = .none
  order : s.gate.order = none

/-- RECOVERING or FORMATTING, in agreement. -/
structure State.InBusy (s : State) : Prop extends State.Quiet s where
  mode : (s.gate.opState = .recovering ∧ s.engine.work.isRecovering = true) ∨
    (s.gate.opState = .formatting ∧ s.engine.work.isFormatting = true)

/-- UNFORMATTED, in agreement. -/
structure State.InUnformatted (s : State) : Prop extends State.Fits s where
  mode : s.gate.opState = .unformatted
  pending : s.intake.pendingCommit = false
  direct : s.queue.entries.all Entry.isDirect = true
  order : s.gate.order = none
  rolling : s.rollingBack = false

/-- RUNNING, in agreement. -/
structure State.InRunning (s : State) : Prop extends State.Fits s where
  mode : s.gate.opState = .running
  causes : s.gate.causes = noCauses
  level : s.gate.level = .none
  order : s.gate.order = none
  rolling : s.rollingBack = false

/-- FROZEN, in agreement. -/
structure State.InFrozen (s : State) : Prop extends State.Fits s where
  mode : s.gate.opState = .frozen

theorem not_rollingBack_of_isRecovering {s : State} (h : s.engine.work.isRecovering = true) :
    s.rollingBack = false ∧ s.engine.work.isFormatting = false ∧ s.headFits = true := by
  cases hw : s.engine.work <;> simp_all [Work.isRecovering, State.rollingBack, Work.isFormatting,
    State.headFits]

theorem not_rollingBack_of_isFormatting {s : State} (h : s.engine.work.isFormatting = true) :
    s.rollingBack = false ∧ s.engine.work.isRecovering = false ∧ s.headFits = true := by
  cases hw : s.engine.work <;> simp_all [Work.isRecovering, State.rollingBack, Work.isFormatting,
    State.headFits]

/-- The agreement, mode by mode. -/
theorem modesAgree_iff (s : State) :
    s.ModesAgree ↔ s.InBusy ∨ s.InUnformatted ∨ s.InRunning ∨ s.InFrozen := by
  constructor
  · rintro ⟨recovers, formats, busy, unformatted, head, running, order⟩
    have ordered : s.gate.opState ≠ .frozen → s.gate.order = none ∧ s.rollingBack = false := by
      intro h
      obtain ⟨h1, h2⟩ := not_or.1 (mt order h)
      simpa using And.intro h1 h2
    have fits : s.gate.opState ≠ .recovering → s.gate.opState ≠ .formatting → s.Fits := by
      intro h1 h2
      exact ⟨Bool.eq_false_iff.2 (mt recovers.2 h1), Bool.eq_false_iff.2 (mt formats.2 h2), head⟩
    cases mode : s.gate.opState with
    | recovering =>
      obtain ⟨queue, pending, level⟩ := busy (.inl mode)
      exact .inl ⟨⟨queue, pending, level, (ordered (by simp [mode])).1⟩, .inl ⟨mode, recovers.1 mode⟩⟩
    | formatting =>
      obtain ⟨queue, pending, level⟩ := busy (.inr mode)
      exact .inl ⟨⟨queue, pending, level, (ordered (by simp [mode])).1⟩, .inr ⟨mode, formats.1 mode⟩⟩
    | unformatted =>
      obtain ⟨pending, direct⟩ := unformatted mode
      obtain ⟨none_, rolling⟩ := ordered (by simp [mode])
      exact .inr (.inl ⟨fits (by simp [mode]) (by simp [mode]), mode, pending, direct, none_, rolling⟩)
    | running =>
      obtain ⟨causes, level⟩ := running mode
      obtain ⟨none_, rolling⟩ := ordered (by simp [mode])
      exact .inr (.inr (.inl
        ⟨fits (by simp [mode]) (by simp [mode]), mode, causes, level, none_, rolling⟩))
    | frozen => exact .inr (.inr (.inr ⟨fits (by simp [mode]) (by simp [mode]), mode⟩))
  · rintro (⟨⟨queue, pending, level, order⟩, ⟨mode, work⟩ | ⟨mode, work⟩⟩ |
      ⟨⟨recovery, format, head⟩, mode, pending, direct, order, rolling⟩ |
      ⟨⟨recovery, format, head⟩, mode, causes, level, order, rolling⟩ | ⟨⟨recovery, format, head⟩, mode⟩)
    · obtain ⟨rolling, format, head⟩ := not_rollingBack_of_isRecovering work
      simp [State.ModesAgree, mode, work, queue, pending, level, order, rolling, format, head]
    · obtain ⟨rolling, recovery, head⟩ := not_rollingBack_of_isFormatting work
      simp [State.ModesAgree, mode, work, queue, pending, level, order, rolling, recovery, head]
    · simpa [State.ModesAgree, mode, pending, order, rolling, recovery, format, head] using direct
    · simp [State.ModesAgree, mode, causes, level, order, rolling, recovery, format, head]
    · simp [State.ModesAgree, mode, recovery, format, head]

/-- The group numbers agree (R3, R124). -/
structure State.Numbers (s : State) : Prop where
  rolls : s.rollsOpenGroup = true
  group : s.intake.group = s.openGroup + BitVec.ofNat 32 (sealCount s.queue.entries)

theorem groupsAgree_iff (s : State) : s.GroupsAgree ↔ s.ModesAgree ∧ s.Numbers :=
  and_congr_right fun _ => ⟨fun h => ⟨h.1, h.2⟩, fun h => ⟨h.1, h.2⟩⟩

/-! ### What is carried from one state to another -/

/-- What the two agreements read of the state. -/
def State.view (s : State) :
    (OpState × CauseSet × Action × Option Origin) × Work × GroupNo × List Entry × Bool × GroupNo :=
  ((s.gate.opState, s.gate.causes, s.gate.level, s.gate.order), s.engine.work, s.engine.closed,
    s.queue.entries, s.intake.pendingCommit, s.intake.group)

/-- An operation carries the engine's agreement with the queue and the group numbers, in every mode. -/
structure State.Bears (s t : State) : Prop where
  fits : s.Fits → t.Fits
  numbers : s.Fits → s.Numbers → t.Numbers

/-- An operation carries every mode to an agreeing one, and does nothing while the part is busy. -/
structure State.Carries (s t : State) : Prop extends State.Bears s t where
  frozen : s.gate.opState = .frozen → t.gate.opState = .frozen
  running : s.InRunning → t.InFrozen ∨ t.InRunning
  unformatted : s.InUnformatted → t.InUnformatted
  busy : s.InBusy → t.view = s.view

theorem State.Bears.trans {s u t : State} (h : s.Bears u) (k : u.Bears t) : s.Bears t where
  fits := k.fits ∘ h.fits
  numbers := fun hs hn => k.numbers (h.fits hs) (h.numbers hs hn)

theorem State.Fits.of_same {s t : State} (work : t.engine.work = s.engine.work)
    (queue : t.queue.entries = s.queue.entries) (h : s.Fits) : t.Fits where
  recovery := work ▸ h.recovery
  format := work ▸ h.format
  head := by rw [State.headFits, work, queue]; exact h.head

theorem State.Numbers.of_same {s t : State} (work : t.engine.work = s.engine.work)
    (closed : t.engine.closed = s.engine.closed) (queue : t.queue.entries = s.queue.entries)
    (group : t.intake.group = s.intake.group) (h : s.Numbers) : t.Numbers where
  rolls := by rw [State.rollsOpenGroup, work, State.openGroup, closed]; exact h.rolls
  group := by rw [group, State.openGroup, closed, queue]; exact h.group

theorem bears_of_same {s t : State} (work : t.engine.work = s.engine.work)
    (closed : t.engine.closed = s.engine.closed) (queue : t.queue.entries = s.queue.entries)
    (group : t.intake.group = s.intake.group) : s.Bears t :=
  ⟨.of_same work queue, fun _ => .of_same work closed queue group⟩

theorem rollingBack_congr {s t : State} (work : t.engine.work = s.engine.work) :
    t.rollingBack = s.rollingBack := by
  rw [State.rollingBack, work, State.rollingBack]

theorem State.InBusy.of_view {s t : State} (h : t.view = s.view) (hs : s.InBusy) : t.InBusy := by
  simp only [State.view, Prod.mk.injEq] at h
  obtain ⟨⟨mode, causes, level, order⟩, work, closed, queue, pending, group⟩ := h
  refine ⟨⟨queue.trans hs.queue, pending.trans hs.pending, level.trans hs.level,
    order.trans hs.order⟩, ?_⟩
  rw [mode, work]
  exact hs.mode

theorem State.Carries.trans {s u t : State} (h : s.Carries u) (k : u.Carries t) : s.Carries t where
  toBears := h.toBears.trans k.toBears
  frozen := k.frozen ∘ h.frozen
  running := fun hs => by
    obtain hu | hu := h.running hs
    · exact .inl ⟨k.fits hu.toFits, k.frozen hu.mode⟩
    · exact k.running hu
  unformatted := k.unformatted ∘ h.unformatted
  busy := fun hs => (k.busy (hs.of_view (h.busy hs))).trans (h.busy hs)

/-- Nothing that the agreements read has been touched. -/
theorem carries_of_view {s t : State} (h : t.view = s.view) : s.Carries t := by
  have view := h
  simp only [State.view, Prod.mk.injEq] at h
  obtain ⟨⟨mode, causes, level, order⟩, work, closed, queue, pending, group⟩ := h
  have bears := bears_of_same work closed queue group
  constructor
  case toBears => exact bears
  case frozen => exact fun hs => mode.trans hs
  case running =>
    exact fun hs => .inr ⟨bears.fits hs.toFits, mode.trans hs.mode, causes.trans hs.causes,
      level.trans hs.level, order.trans hs.order, (rollingBack_congr work).trans hs.rolling⟩
  case unformatted =>
    exact fun hs => ⟨bears.fits hs.toFits, mode.trans hs.mode, pending.trans hs.pending,
      queue ▸ hs.direct, order.trans hs.order, (rollingBack_congr work).trans hs.rolling⟩
  case busy => exact fun _ => view

theorem State.Carries.refl (s : State) : s.Carries s := carries_of_view rfl

/-- What is carried in RUNNING and FROZEN only. -/
theorem carries_of_open {s t : State} (h : s.gate.opState = .running ∨ s.gate.opState = .frozen)
    (bears : s.Bears t) (mode : t.gate.opState = .frozen ∨ t.gate.opState = s.gate.opState)
    (running : s.InRunning → t.gate.opState = .frozen ∨ t.InRunning) : s.Carries t where
  toBears := bears
  frozen := fun hs => mode.elim id fun same => same.trans hs
  running := fun hs => (running hs).imp_left fun frozen => ⟨bears.fits hs.toFits, frozen⟩
  unformatted := fun hs => by simp [hs.mode] at h
  busy := fun hs => by
    obtain ⟨mode, -⟩ | ⟨mode, -⟩ := hs.mode <;> simp [mode] at h

/-! ### Appending to the queue -/

theorem State.Fits.append {s t : State} (h : s.Fits) (work : t.engine.work = s.engine.work)
    {e : Entry} (queue : t.queue.entries = s.queue.entries ++ [e]) : t.Fits where
  recovery := work ▸ h.recovery
  format := work ▸ h.format
  head := by
    rw [headFits_iff, work, queue]
    intro d hd
    obtain ⟨head, q, hq, fits⟩ := (headFits_iff s).1 h.head d hd
    exact ⟨head, q ++ [e], by rw [hq]; rfl, fits⟩

theorem sealCount_append (q r : List Entry) : sealCount (q ++ r) = sealCount q + sealCount r := by
  simp [sealCount]

/-- A WRITE entry or a TABLE token bears on no group number. -/
theorem bears_append {s t : State} (work : t.engine.work = s.engine.work)
    (closed : t.engine.closed = s.engine.closed) {e : Entry}
    (queue : t.queue.entries = s.queue.entries ++ [e]) (token : e.isSeal = false)
    (group : t.intake.group = s.intake.group) : s.Bears t where
  fits := fun h => h.append work queue
  numbers := fun _ hn => {
    rolls := by rw [State.rollsOpenGroup, work, State.openGroup, closed]; exact hn.rolls
    group := by
      have count : sealCount t.queue.entries = sealCount s.queue.entries := by
        rw [queue, sealCount_append]
        simp [sealCount, token]
      rw [group, State.openGroup, closed, count]
      exact hn.group }

/-! ### Cycles and claims (Chapters 2 and 3) -/

/-- A write that is accepted appends one WRITE entry, and a DIRECT one with the class DIRECT (R42, R46). -/
theorem acceptWrite_appends (a : Addr) (data : Word) (lanes : Lanes) (cls : RegionClass) (s : State) :
    (acceptWrite a data lanes cls s).intake.pendingCommit = s.intake.pendingCommit ∧
    (acceptWrite a data lanes cls s).intake.group = s.intake.group ∧
    ∃ w, (acceptWrite a data lanes cls s).queue.entries = s.queue.entries ++ [.write w] ∧
      (cls = .direct → w.mark = none) := by
  cases cls with
  | journaled => exact ⟨rfl, rfl, _, rfl, fun h => RegionClass.noConfusion h⟩
  | _ => exact ⟨rfl, rfl, _, rfl, fun _ => rfl⟩

theorem lookup_unformatted {s : State} (h : s.gate.opState = .unformatted) (a : Addr) :
    (s.lookup a).1 = .direct := by
  simp [State.lookup, h]

theorem acceptWrite_carries {s : State} (taken : s.refusesState = false) {a : Addr} {cls : RegionClass}
    (direct : s.gate.opState = .unformatted → cls = .direct) (data : Word) (lanes : Lanes) :
    s.Carries (acceptWrite a data lanes cls s) := by
  obtain ⟨pending, group, w, queue, mark⟩ := acceptWrite_appends a data lanes cls s
  have gate : (acceptWrite a data lanes cls s).gate = s.gate := by simp
  have engine : (acceptWrite a data lanes cls s).engine = s.engine := by simp
  have work := congrArg Engine.work engine
  have bears := bears_append work (congrArg Engine.closed engine) queue rfl group
  constructor
  case toBears => exact bears
  case frozen => exact fun hs => gate ▸ hs
  case running =>
    exact fun hs => .inr ⟨bears.fits hs.toFits, gate ▸ hs.mode, gate ▸ hs.causes, gate ▸ hs.level,
      gate ▸ hs.order, (rollingBack_congr work).trans hs.rolling⟩
  case unformatted =>
    intro hs
    have all : (acceptWrite a data lanes cls s).queue.entries.all Entry.isDirect = true := by
      rw [queue, List.all_append, hs.direct]
      simp [Entry.isDirect, mark (direct hs.mode)]
    exact ⟨bears.fits hs.toFits, gate ▸ hs.mode, pending.trans hs.pending, all, gate ▸ hs.order,
      (rollingBack_congr work).trans hs.rolling⟩
  case busy =>
    intro hs
    obtain ⟨mode, -⟩ | ⟨mode, -⟩ := hs.mode <;> simp [State.refusesState, mode] at taken

theorem refuse_carries (a : Addr) (d : Direction) (why : Reason) (tag : Word) (s : State) :
    s.Carries (refuse a d why tag s) :=
  carries_of_view (by simp [State.view])

theorem claimFirst_carries (s : State) : s.Carries (claimFirst s) := by
  obtain e | ⟨c, -, -, e⟩ := claimFirst_cases s <;> rw [e]
  · exact .refl s
  · obtain ⟨why, tag, e⟩ | ⟨taken, -, e⟩ := claimEntry_cases c s <;> rw [e]
    · exact refuse_carries _ _ _ _ s
    · exact acceptWrite_carries taken (fun h => lookup_unformatted h _) _ _

theorem compared_carries (held : Four WatchSettings) (seen : WatchCapture) (s : State) :
    s.Carries (compareAll held seen (openCycle s)) :=
  carries_of_view (by simp [State.view])

/-! ### Commit requests (3.5) -/

theorem makeToken_carries {s : State} (h : s.gate.opState = .running ∨ s.gate.opState = .frozen) :
    s.Carries (makeToken s) := by
  have gate : (makeToken s).gate = s.gate := by simp
  have engine : (makeToken s).engine = s.engine := by simp
  have work := congrArg Engine.work engine
  have queue : (makeToken s).queue.entries =
      s.queue.entries ++ [.sealToken s.intake.group s.readySwitch] := by
    simp [makeToken, appendEntry]
  have group : (makeToken s).intake.group = s.intake.group + 1 := by
    simp [makeToken, appendEntry]
  have bears : s.Bears (makeToken s) := {
    fits := fun hs => hs.append work queue
    numbers := fun _ hn => {
      rolls := by rw [State.rollsOpenGroup, State.openGroup, engine]; exact hn.rolls
      group := by
        have one : sealCount [.sealToken s.intake.group s.readySwitch] = 1 := rfl
        rw [group, hn.group, State.openGroup, State.openGroup, engine, queue, sealCount_append, one,
          BitVec.ofNat_add, BitVec.add_assoc]
        rfl } }
  refine carries_of_open h bears (.inr (congrArg Gate.opState gate)) fun hs => .inr ?_
  exact ⟨bears.fits hs.toFits, gate ▸ hs.mode, gate ▸ hs.causes, gate ▸ hs.level, gate ▸ hs.order,
    (rollingBack_congr work).trans hs.rolling⟩

/-- Of Intake, nothing but the pending commit, the auto-commit count and the level of SEAL changes. -/
theorem intake_carries {s : State} (h : s.gate.opState = .running ∨ s.gate.opState = .frozen) {i : Intake}
    (group : i.group = s.intake.group) : s.Carries (s.setIntake i) := by
  have bears : s.Bears (s.setIntake i) := bears_of_same rfl rfl rfl group
  refine carries_of_open h bears (.inr rfl) fun hs => .inr ?_
  exact ⟨bears.fits hs.toFits, hs.mode, hs.causes, hs.level, hs.order, hs.rolling⟩

/-- A request is held or makes a token in RUNNING and FROZEN only (R52 steps 1 and 2). -/
theorem open_of_commitStep {s : State} (h : s.commitStep = .held ∨ s.commitStep = .token) :
    s.gate.opState = .running ∨ s.gate.opState = .frozen := by
  cases mode : s.gate.opState <;> simp_all [State.commitStep]

theorem takeCommit_carries (s : State) : s.Carries (takeCommit s) := by
  obtain e | ⟨held, e⟩ | ⟨token, e⟩ := takeCommit_cases s <;> rw [e]
  · exact .refl s
  · exact intake_carries (open_of_commitStep (.inl held)) rfl
  · exact makeToken_carries (open_of_commitStep (.inr token))

theorem takeAuto_carries (s : State) : s.Carries (takeAuto s) := by
  unfold takeAuto
  dsimp only
  split
  · next token => exact makeToken_carries (open_of_commitStep (.inr token))
  · next held => exact intake_carries (open_of_commitStep (.inl held)) rfl
  all_goals exact carries_of_view rfl

/-! ### Triggers (6.3, 6.4) -/

theorem stopKept_cons {s : State} {e : Entry} {q : List Entry} (begun : s.headBegun = true)
    (h : s.queue.entries = e :: q) : s.stopKept = e :: stopKeep q := by
  simp [State.stopKept, begun, h]

/-- A STOP order leaves a begun head in place and every SEAL token in the queue (R59). -/
theorem stopOrder_bears (s : State) : s.Bears (stopOrder s) := by
  have work : (stopOrder s).engine.work = s.engine.work := by simp [stopOrder]
  have closed : (stopOrder s).engine.closed = s.engine.closed := by simp [stopOrder]
  have queue : (stopOrder s).queue.entries = s.stopKept := by simp [stopOrder, Posted.discardTo]
  have group : (stopOrder s).intake.group = s.intake.group := by simp [stopOrder, Intake.cleared]
  constructor
  case fits =>
    intro hs
    refine ⟨work ▸ hs.recovery, work ▸ hs.format, ?_⟩
    rw [headFits_iff, work, queue]
    intro d hd
    obtain ⟨e, q, hq, fits⟩ := (headFits_iff s).1 hs.head d hd
    exact ⟨e, stopKeep q, stopKept_cons (by simp [State.headBegun, hd]) hq, fits⟩
  case numbers =>
    intro _ hn
    refine ⟨?_, ?_⟩
    · rw [State.rollsOpenGroup, work, State.openGroup, closed]
      exact hn.rolls
    · rw [group, State.openGroup, closed, queue, stopKept_seals]
      exact hn.group

theorem bears_setGate (x : Gate) (s : State) : s.Bears (s.setGate x) := bears_of_same rfl rfl rfl rfl

theorem placeOrder_bears (o : Origin) (s : State) : s.Bears (placeOrder o s) := by
  unfold placeOrder
  split
  · exact (State.Carries.refl s).toBears
  · exact bears_setGate _ s

theorem actStopped_bears (cause : Cause) (a : Action) (s : State) : s.Bears (actStopped cause a s) := by
  cases a with
  | none | sealGroup => exact (State.Carries.refl s).toBears
  | stop => exact stopOrder_bears s
  | rollback => exact (stopOrder_bears s).trans (placeOrder_bears _ _)

theorem actOpen_bears (a : Action) (s : State) : s.Bears (actOpen a s) := by
  cases a with
  | sealGroup =>
    refine State.Bears.trans ?_ (takeCommit_carries _).toBears
    split
    · exact (State.Carries.refl s).toBears
    · exact (claimFirst_carries s).toBears
  | _ => exact (State.Carries.refl s).toBears

theorem closeGate_bears (s : State) : s.Bears (closeGate s) := by
  have fields := refuseWaiting_fields (raise .froze (setOpState .frozen s))
  obtain ⟨-, intake, -, queue, -, -, engine⟩ := fields
  exact bears_of_same (congrArg Engine.work engine) (congrArg Engine.closed engine)
    (congrArg Posted.entries queue) (congrArg Intake.group intake)

theorem trigger_bears (cause : Cause) (a : Action) (s : State) : s.Bears (trigger cause a s) := by
  have opened : s.Bears (actOpen a (addCause cause s)) :=
    (bears_setGate _ s).trans (actOpen_bears a _)
  cases mode : s.gate.opState with
  | running =>
    rw [trigger_of_running mode]
    exact ((opened.trans (closeGate_bears _)).trans (actStopped_bears cause a _)).trans
      (bears_setGate _ _)
  | frozen =>
    by_cases stronger : s.gate.level.strength < a.strength
    · rw [trigger_of_stronger mode cause stronger]
      exact (opened.trans (actStopped_bears cause a _)).trans (bears_setGate _ _)
    · rw [trigger_of_not_stronger mode cause stronger]
      exact bears_setGate _ s
  | recovering | unformatted | formatting => simpa [trigger, mode] using (State.Carries.refl s).toBears

/-- Outside RUNNING and FROZEN a trigger does nothing (R107). -/
theorem trigger_closed {s : State} (h : ¬ (s.gate.opState = .running ∨ s.gate.opState = .frozen))
    (cause : Cause) (a : Action) : trigger cause a s = s := by
  cases mode : s.gate.opState <;> simp_all [trigger]

theorem trigger_carries (cause : Cause) (a : Action) (s : State) : s.Carries (trigger cause a s) := by
  by_cases h : s.gate.opState = .running ∨ s.gate.opState = .frozen
  · obtain ⟨frozen, -, -⟩ := trigger_gate h cause a
    exact carries_of_open h (trigger_bears cause a s) (.inl frozen) fun _ => .inl frozen
  · rw [trigger_closed h]
    exact .refl s

theorem watchTrigger_carries (o : Option WatchAction) (s : State) : s.Carries (watchTrigger o s) := by
  unfold watchTrigger
  split
  · exact trigger_carries _ _ s
  all_goals exact .refl s

theorem refuse_compared_carries (o : Option WatchAction) (a : Addr) (d : Direction) (why : Reason)
    (tag : Word) (held : Four WatchSettings) (seen : WatchCapture) (s : State) :
    s.Carries (watchTrigger o (refuse a d why tag (compareAll held seen s))) :=
  (carries_of_view (by simp [State.view])).trans (watchTrigger_carries o _)

theorem openCycle_carries (s : State) : s.Carries (openCycle s) := carries_of_view rfl

theorem takeRead_carries (a : Addr) (s : State) : s.Carries (takeRead a s) := by
  obtain ⟨x, e⟩ | ⟨x, o, held, seen, tag, e⟩ | ⟨x, timer, -, e⟩ := takeRead_cases a s <;> rw [e]
  · exact carries_of_view (by simp [State.view])
  · exact (openCycle_carries s).trans (refuse_compared_carries _ _ _ _ _ _ _ _)
  · exact carries_of_view rfl

theorem takeWrite_carries (a : Addr) (data : Word) (lanes : Lanes) (s : State) :
    s.Carries (takeWrite a data lanes s) := by
  obtain ⟨x, e⟩ | ⟨x, o, held, seen, why, tag, e⟩ | ⟨x, held, seen, -, taken, -, e⟩ |
    ⟨x, timer, held, seen, -, -, e⟩ := takeWrite_cases a data lanes s <;> rw [e]
  · exact carries_of_view (by simp [State.view])
  · exact (openCycle_carries s).trans (refuse_compared_carries _ _ _ _ _ _ _ _)
  · refine (compared_carries held seen s).trans (acceptWrite_carries ?_ ?_ _ _)
    · simpa [State.refusesState] using taken
    · exact fun h => lookup_unformatted (by simpa using h) _
  · exact (compared_carries held seen s).trans (carries_of_view rfl)

theorem expireHold_carries (c : Cycle) (s : State) : s.Carries (expireHold c s) := by
  obtain e | ⟨o, held, seen, e⟩ | e := expireHold_cases c s <;> rw [e]
  · exact refuse_carries _ _ _ _ s
  · exact refuse_compared_carries _ _ _ _ _ _ _ s
  · exact .refl s

theorem finishRead_carries (data : Word) (s : State) : s.Carries (finishRead data s) := by
  obtain e | ⟨c, o, held, seen, e⟩ | ⟨w, held, seen, e⟩ := finishRead_cases data s <;> rw [e]
  · exact .refl s
  · exact refuse_compared_carries _ _ _ _ _ _ _ s
  · exact carries_of_view (by simp [State.view])

end Sys2Proof.Machine
end

section
/-! PROOFS. The agreement of the modes and of the group numbers through the Store Engine's drains and live
rollbacks. -/

namespace Sys2Proof.Machine

/-! ### What an engine at work can be in (Chapter 4) -/

/-- A change that a busy part, an UNFORMATTED one and a RUNNING one treat alike: the operating state, the causes,
the level and the order stay, and the engine is not ROLLING_BACK. -/
theorem carries_of_gate {s t : State} (bears : s.Bears t)
    (gate : (t.gate.opState, t.gate.level, t.gate.order) = (s.gate.opState, s.gate.level, s.gate.order))
    (causes : s.gate.causes = noCauses → t.gate.causes = noCauses)
    (rolling : s.rollingBack = false → t.rollingBack = false)
    (unformatted : s.InUnformatted → t.intake.pendingCommit = false ∧
      t.queue.entries.all Entry.isDirect = true)
    (idle : ¬ s.InBusy) : s.Carries t := by
  simp only [Prod.mk.injEq] at gate
  obtain ⟨mode, level, order⟩ := gate
  constructor
  case toBears => exact bears
  case frozen => exact fun hs => mode.trans hs
  case running =>
    exact fun hs => .inr ⟨bears.fits hs.toFits, mode.trans hs.mode, causes hs.causes, level.trans hs.level,
      order.trans hs.order, rolling hs.rolling⟩
  case unformatted =>
    intro hs
    obtain ⟨pending, direct⟩ := unformatted hs
    exact ⟨bears.fits hs.toFits, mode.trans hs.mode, pending, direct, order.trans hs.order,
      rolling hs.rolling⟩
  case busy => exact fun hs => absurd hs idle

theorem State.InBusy.work {s : State} (h : s.InBusy) :
    s.engine.work.isRecovering = true ∨ s.engine.work.isFormatting = true :=
  h.mode.imp And.right And.right

theorem not_inBusy_of_draining {s : State} {d : Drain} (work : s.engine.work = .draining d) :
    ¬ s.InBusy := by
  intro h
  have := h.work
  simp [work, Work.isRecovering, Work.isFormatting] at this

theorem not_inBusy_of_rollingBack {s : State} {r : Rollback} (work : s.engine.work = .rollingBack r) :
    ¬ s.InBusy := by
  intro h
  have := h.work
  simp [work, Work.isRecovering, Work.isFormatting] at this

theorem not_inBusy_of_idle {s : State} (work : s.engine.work = .idle) : ¬ s.InBusy := by
  intro h
  have := h.work
  simp [work, Work.isRecovering, Work.isFormatting] at this

/-- In UNFORMATTED the engine drains DIRECT writes only, which it only applies (R23, R65). -/
theorem apply_of_unformatted {s : State} (h : s.InUnformatted) {d : Drain}
    (work : s.engine.work = .draining d) : d = .apply := by
  obtain ⟨e, q, hq, fits⟩ := (headFits_iff s).1 h.head d work
  have direct : e.isDirect = true := by
    have := h.direct
    rw [hq, List.all_cons, Bool.and_eq_true] at this
    exact this.1
  cases d with
  | apply => rfl
  | _ => cases e <;> simp_all [Drain.drains, Entry.isDirect, Entry.isJournaled, Entry.isSeal]

/-! ### Going on with a drain -/

/-- The engine goes on with the begun head. -/
theorem bears_setWork_draining {s : State} {d e : Drain} (work : s.engine.work = .draining d)
    (same : ∀ h, d.drains h = true → e.drains h = true) {x : Engine} (next : x.work = .draining e)
    (closed : x.closed = s.engine.closed) : s.Bears (s.setEngine x) where
  fits := fun hs => by
    refine ⟨by simp [next, Work.isRecovering], by simp [next, Work.isFormatting], ?_⟩
    rw [headFits_iff]
    intro f hf
    have : f = e := by simpa [next, eq_comm] using hf
    subst this
    obtain ⟨h, q, hq, fits⟩ := (headFits_iff s).1 hs.head d work
    exact ⟨h, q, hq, same h fits⟩
  numbers := fun _ hn => {
    rolls := by simp [State.rollsOpenGroup, next]
    group := by
      rw [State.openGroup, State.setEngine_engine, closed]
      exact hn.group }

theorem setEngine_draining_carries {s : State} {d e : Drain} (work : s.engine.work = .draining d)
    (same : ∀ h, d.drains h = true → e.drains h = true) {x : Engine} (next : x.work = .draining e)
    (closed : x.closed = s.engine.closed) : s.Carries (s.setEngine x) :=
  carries_of_gate (bears_setWork_draining work same next closed) rfl id
    (fun _ => by simp [State.rollingBack, next]) (fun hs => ⟨hs.pending, hs.direct⟩)
    (not_inBusy_of_draining work)

theorem setDrain_carries {s : State} {d : Drain} (work : s.engine.work = .draining d) {e : Drain}
    (same : ∀ h, d.drains h = true → e.drains h = true) : s.Carries (setDrain e s) :=
  setEngine_draining_carries work same rfl rfl

theorem sealCount_cons (e : Entry) (q : List Entry) :
    sealCount (e :: q) = (if e.isSeal then 1 else 0) + sealCount q := by
  simp only [sealCount, List.filter_cons]
  split <;> simp [Nat.add_comm]

theorem fits_of_idle {s : State} (work : s.engine.work = .idle) : s.Fits where
  recovery := by simp [work, Work.isRecovering]
  format := by simp [work, Work.isFormatting]
  head := headFits_of_not_draining (by simp [work])

theorem rollsOpenGroup_of_not_rolling {s : State} (h : ∀ r, s.engine.work ≠ .rollingBack r) :
    s.rollsOpenGroup = true := by
  unfold State.rollsOpenGroup
  split
  · next work => exact absurd work (h _)
  all_goals rfl

theorem all_tail {p : Entry → Bool} {q : List Entry} (h : q.all p = true) : q.tail.all p = true := by
  cases q with
  | nil => rfl
  | cons e q => exact (Bool.and_eq_true_iff.1 h).2

/-- A head that is no SEAL token leaves the queue. -/
theorem finishDrain_carries {s : State} {d : Drain} (work : s.engine.work = .draining d)
    (token : ∀ e, d.drains e = true → e.isSeal = false) : s.Carries (finishDrain s) := by
  have bears : s.Bears (finishDrain s) := {
    fits := fun _ => fits_of_idle rfl
    numbers := fun hs hn => {
      rolls := rollsOpenGroup_of_not_rolling (by simp [finishDrain, setWork])
      group := by
        obtain ⟨e, q, hq, fits⟩ := (headFits_iff s).1 hs.head d work
        have count : sealCount s.queue.entries.tail = sealCount s.queue.entries := by
          rw [hq, sealCount_cons, if_neg (by simp [token e fits]), Nat.zero_add]
          rfl
        have group := hn.group
        rw [← count] at group
        exact group } }
  exact carries_of_gate bears rfl id (fun _ => rfl)
    (fun hs => ⟨hs.pending, all_tail hs.direct⟩) (not_inBusy_of_draining work)

/-! ### Journal faults (4.6) -/

theorem faultOrder_fields (s : State) : (faultOrder s).gate = s.gate ∧
    (faultOrder s).engine = s.engine ∧ (faultOrder s).intake.group = s.openGroup ∧
    (faultOrder s).queue.entries = s.queue.entries.filter fun e => !e.isJournaled && !e.isSeal := by
  refine ⟨by simp, by simp, ?_, ?_⟩
  · unfold faultOrder
    dsimp only
    split <;> rfl
  · unfold faultOrder
    dsimp only
    split <;> rfl

theorem sealCount_eq_zero {q : List Entry} (h : ∀ e ∈ q, e.isSeal = false) : sealCount q = 0 := by
  simpa [sealCount] using h

/-- What a journal fault makes before its trigger: the discard order, and the rollback of the open group. -/
def State.faulted (s : State) (cause : Cause) (retract : Bool) : State :=
  withdrawOrder ((faultOrder s).setEngine { (faultOrder s).engine with
    abandoned := some (faultOrder s).openGroup
    work := .rollingBack ((faultOrder s).faultRollback cause retract) })

theorem journalFault_cases (cause : Cause) (retract : Bool) (s : State) :
    journalFault cause retract s = trigger cause .rollback (s.faulted cause retract) ∨
    ∃ r, journalFault cause retract s =
      endRollback r .empty none none (trigger cause .rollback (s.faulted cause retract)) := by
  unfold journalFault
  dsimp only
  split
  · exact .inr ⟨_, rfl⟩
  · exact .inl rfl

theorem faulted_fits (cause : Cause) (retract : Bool) (s : State) : (s.faulted cause retract).Fits where
  recovery := rfl
  format := rfl
  head := headFits_of_not_draining (by simp [State.faulted, withdrawOrder])

/-- Behind the discard order no SEAL token is left, and Intake stands at the open group. -/
theorem faulted_numbers (cause : Cause) (retract : Bool) (s : State) :
    (s.faulted cause retract).Numbers := by
  obtain ⟨-, engine, group, queue⟩ := faultOrder_fields s
  constructor
  case rolls =>
    simp [State.rollsOpenGroup, State.faulted, withdrawOrder, State.faultRollback, State.newRollback,
      State.openGroup]
  case group =>
    have none_ : sealCount (s.faulted cause retract).queue.entries = 0 := by
      refine sealCount_eq_zero fun e he => ?_
      have he : e ∈ (faultOrder s).queue.entries := he
      rw [queue, List.mem_filter] at he
      simpa using (Bool.and_eq_true_iff.1 he.2).2
    rw [none_]
    have closed : (faultOrder s).openGroup = s.openGroup := by rw [State.openGroup, engine]; rfl
    exact (group.trans closed.symm).trans (BitVec.add_zero _).symm

theorem faulted_mode (cause : Cause) (retract : Bool) (s : State) :
    (s.faulted cause retract).gate.opState = s.gate.opState := by
  obtain ⟨gate, -⟩ := faultOrder_fields s
  have mode := congrArg Gate.opState gate
  exact mode

/-- The end of a rollback leaves the engine IDLE, and gate, Intake and queue as they are. -/
theorem endRollback_bears (r : Rollback) (outcome : RestoreOutcome) (stop idx : Option Nat) (s : State) :
    s.Bears (endRollback r outcome stop idx s) := by
  obtain ⟨gate, intake, -, queue, -, -, engine, -⟩ := endRollback_fields r outcome stop idx s
  have work : (endRollback r outcome stop idx s).engine.work = .idle := by rw [engine]
  refine ⟨fun _ => fits_of_idle work, fun _ hn => ⟨rollsOpenGroup_of_not_rolling (by simp [work]), ?_⟩⟩
  rw [intake, queue, State.openGroup, engine]
  exact hn.group

theorem journalFault_carries {s : State} {d : Drain} (work : s.engine.work = .draining d)
    (other : d ≠ .apply) (cause : Cause) (retract : Bool) :
    s.Carries (journalFault cause retract s) := by
  have triggered := trigger_bears cause .rollback (s.faulted cause retract)
  have fits := triggered.fits (faulted_fits cause retract s)
  have numbers := triggered.numbers (faulted_fits cause retract s) (faulted_numbers cause retract s)
  have bears : s.Bears (journalFault cause retract s) := by
    obtain e | ⟨r, e⟩ := journalFault_cases cause retract s <;> rw [e]
    · exact ⟨fun _ => fits, fun _ _ => numbers⟩
    · have ended := endRollback_bears r .empty none none (trigger cause .rollback (s.faulted cause retract))
      exact ⟨fun _ => ended.fits fits, fun _ _ => ended.numbers fits numbers⟩
  have frozen : s.gate.opState = .running ∨ s.gate.opState = .frozen →
      (journalFault cause retract s).gate.opState = .frozen := by
    intro h
    rw [← faulted_mode cause retract s] at h
    have frozen := (trigger_gate h cause .rollback).1
    obtain e | ⟨r, e⟩ := journalFault_cases cause retract s <;> rw [e]
    · exact frozen
    · rw [(endRollback_fields _ _ _ _ _).1]
      exact frozen
  constructor
  case toBears => exact bears
  case frozen => exact fun hs => frozen (.inr hs)
  case running => exact fun hs => .inl ⟨bears.fits hs.toFits, frozen (.inl hs.mode)⟩
  case unformatted => exact fun hs => absurd (apply_of_unformatted hs work) other
  case busy => exact fun hs => absurd hs (not_inBusy_of_draining work)

/-! ### The stages of a drain (4.3 to 4.5) -/

theorem beginRecord_carries {s : State} {got : List Word} (work : s.engine.work = .draining (.copy got))
    (image : List Word) : s.Carries (beginRecord image s) := by
  unfold beginRecord
  split
  · exact journalFault_carries work (by simp) _ _
  · exact setDrain_carries work fun _ h => h

theorem count_carries (x : Counter) (s : State) : s.Carries (count x s) := carries_of_view rfl

theorem countRecord_carries {s : State} {b : Burst} (work : s.engine.work = .draining (.record b))
    (check : Word) : s.Carries (countRecord check s) := by
  have counted : s.Carries (s.setEngine { s.engine with
      count := s.engine.count + 1, chain := check, work := .draining .apply }) := by
    refine setEngine_draining_carries work (fun e he => ?_) rfl rfl
    cases e with
    | write w => rfl
    | _ => simp [Drain.drains, Entry.isJournaled] at he
  unfold countRecord
  dsimp only
  split
  · exact counted.trans (count_carries _ _)
  · exact counted

theorem checkExhausted_carries (s : State) : s.Carries (checkExhausted s) := by
  unfold checkExhausted
  split
  · exact trigger_carries _ _ s
  · exact .refl s

/-- What a seal that completes makes before the check for the last group. -/
def State.sealed (s : State) : State :=
  let s' := match s.headSwitch with
    | some t => settleSwitch t (closeGroup s.openGroup s)
    | none => closeGroup s.openGroup s
  count .sealedGroups (raise .groupSealed (finishDrain s'))

theorem sealComplete_eq (s : State) : sealComplete s = checkExhausted s.sealed := by
  unfold sealComplete State.sealed
  cases s.headSwitch <;> rfl

theorem sealed_fields (s : State) :
    (s.sealed.gate.opState, s.sealed.gate.level, s.sealed.gate.order) =
      (s.gate.opState, s.gate.level, s.gate.order) ∧
    (s.sealed.gate.causes = s.gate.causes ∨
      s.sealed.gate.causes = { s.gate.causes with table := false }) ∧
    s.sealed.engine.work = .idle ∧ s.sealed.engine.closed = s.openGroup ∧
    s.sealed.queue.entries = s.queue.entries.tail ∧ s.sealed.intake.group = s.intake.group := by
  unfold State.sealed
  dsimp only
  split
  · exact ⟨rfl, .inr rfl, rfl, rfl, rfl, rfl⟩
  · exact ⟨rfl, .inl rfl, rfl, rfl, rfl, rfl⟩

/-- C rises by one as a token leaves the queue (R3). -/
theorem sealed_carries {s : State} {b : Burst} (work : s.engine.work = .draining (.anchor b)) :
    s.Carries s.sealed := by
  obtain ⟨gate, causes, idle, closed, queue, group⟩ := sealed_fields s
  have bears : s.Bears s.sealed := {
    fits := fun _ => fits_of_idle idle
    numbers := fun hs hn => {
      rolls := rollsOpenGroup_of_not_rolling (by simp [idle])
      group := by
        obtain ⟨e, q, hq, fits⟩ := (headFits_iff s).1 hs.head _ work
        have token : e.isSeal = true := fits
        have numbers := hn.group
        rw [hq, sealCount_cons, if_pos token, BitVec.ofNat_add, ← BitVec.add_assoc] at numbers
        have opened : s.sealed.openGroup = s.openGroup + 1 := congrArg (· + 1) closed
        rw [group, numbers, opened, queue, hq]
        rfl } }
  refine carries_of_gate bears gate (fun h => ?_) (fun _ => by simp [State.rollingBack, idle])
    (fun hs => ?_) (not_inBusy_of_draining work)
  · obtain e | e := causes <;> rw [e, h]
    rfl
  · cases apply_of_unformatted hs work

theorem sealComplete_carries {s : State} {b : Burst} (work : s.engine.work = .draining (.anchor b)) :
    s.Carries (sealComplete s) := by
  rw [sealComplete_eq]
  exact (sealed_carries work).trans (checkExhausted_carries _)

theorem endTableRead_carries {s : State} {got : List Word} {kept : List Descriptor}
    (work : s.engine.work = .draining (.tableRead got kept)) (outcome : TableOutcome) (read index : Nat)
    (t : Table) : s.Carries (endTableRead outcome read index t s) := by
  have ends : ∀ x : State, x.view = s.view → s.Carries (finishDrain x) := by
    intro x view
    have same : x.engine.work = s.engine.work := by
      simp only [State.view, Prod.mk.injEq] at view
      exact view.2.1
    refine (carries_of_view view).trans (finishDrain_carries (same.trans work) fun e he => ?_)
    cases e with
    | tableToken base => rfl
    | _ => cases he
  exact ends _ rfl

theorem takeDescriptor_carries {s : State} {got : List Word} {kept : List Descriptor}
    (work : s.engine.work = .draining (.tableRead got kept)) (ws : List Word) :
    s.Carries (takeDescriptor kept ws s) := by
  have ends := endTableRead_carries work
  unfold takeDescriptor
  dsimp only
  split
  · exact ends _ _ _ _
  · split
    · split <;> exact ends _ _ _ _
    · split
      · exact ends _ _ _ _
      · exact setDrain_carries work fun _ h => h

theorem advanceDrain_carries {s : State} {d : Drain} (work : s.engine.work = .draining d) (data : Word) :
    s.Carries (advanceDrain d data s) := by
  cases d with
  | copy got =>
    simp only [advanceDrain]
    split
    · exact setDrain_carries work fun _ h => h
    · exact beginRecord_carries work _
  | record b =>
    simp only [advanceDrain]
    split
    · exact setDrain_carries work fun _ h => h
    · exact journalFault_carries work (by simp) _ _
    · exact countRecord_carries work _
  | apply =>
    refine finishDrain_carries work fun e he => ?_
    cases e with
    | write w => rfl
    | _ => cases he
  | anchor b =>
    simp only [advanceDrain]
    split
    · exact setDrain_carries work fun _ h => h
    · exact journalFault_carries work (by simp) _ _
    · exact sealComplete_carries work
  | tableRead got kept =>
    simp only [advanceDrain]
    split
    · exact setDrain_carries work fun _ h => h
    · exact takeDescriptor_carries work _

/-! ### Taking the head (R65) -/

/-- The first stage drains its entry, and a DIRECT write is applied at once. -/
theorem firstStage_drains (s : State) (e : Entry) :
    (s.firstStage e).drains e = true ∧ (e.isDirect = true → s.firstStage e = .apply) := by
  cases e with
  | write w =>
    cases mark : w.mark with
    | none => simp [State.firstStage, mark, Drain.drains]
    | some m =>
      cases first : m.copyFirst <;>
        simp [State.firstStage, mark, first, Drain.drains, Entry.isDirect, Entry.isJournaled]
  | _ => simp [State.firstStage, Drain.drains, Entry.isDirect, Entry.isSeal]

theorem setDrain_first_carries {s : State} (work : s.engine.work = .idle) {e : Entry} {q : List Entry}
    (queue : s.queue.entries = e :: q) : s.Carries (setDrain (s.firstStage e) s) := by
  have bears : s.Bears (setDrain (s.firstStage e) s) := {
    fits := fun _ => {
      recovery := rfl
      format := rfl
      head := by
        rw [headFits_iff]
        intro d hd
        have : d = s.firstStage e := by simpa [setDrain, setWork, eq_comm] using hd
        exact ⟨e, q, queue, this ▸ (firstStage_drains s e).1⟩ }
    numbers := fun _ hn => {
      rolls := rollsOpenGroup_of_not_rolling (by simp [setDrain, setWork])
      group := hn.group } }
  exact carries_of_gate bears rfl id (fun _ => rfl) (fun hs => ⟨hs.pending, hs.direct⟩)
    (not_inBusy_of_idle work)

theorem takeHead_carries (s : State) : s.Carries (takeHead s) := by
  unfold takeHead
  split
  · exact .refl s
  · next e q queue =>
    split
    · next ready =>
      refine setDrain_first_carries ?_ queue
      simp only [State.headReady, Bool.and_eq_true, decide_eq_true_eq] at ready
      exact ready.1.1
    · exact .refl s

/-! ### Live rollbacks (Chapter 7) -/

/-- What is carried while the engine rolls back, which it does in FROZEN only (R131). -/
theorem carries_of_rollingBack {s t : State} {r : Rollback} (work : s.engine.work = .rollingBack r)
    (bears : s.Bears t) (frozen : s.gate.opState = .frozen → t.gate.opState = .frozen) : s.Carries t := by
  have rolling : s.rollingBack = true := by simp [State.rollingBack, work]
  constructor
  case toBears => exact bears
  case frozen => exact frozen
  case running => exact fun hs => by simp [hs.rolling] at rolling
  case unformatted => exact fun hs => by simp [hs.rolling] at rolling
  case busy => exact fun hs => absurd hs (not_inBusy_of_rollingBack work)

theorem fits_of_rollingBack {s : State} {r : Rollback} (work : s.engine.work = .rollingBack r) :
    s.Fits where
  recovery := by simp [work, Work.isRecovering]
  format := by simp [work, Work.isFormatting]
  head := headFits_of_not_draining (by simp [work])

theorem group_of_rolls {s : State} {r : Rollback} (work : s.engine.work = .rollingBack r)
    (rolls : s.rollsOpenGroup = true) : r.group = s.openGroup := by
  simpa [State.rollsOpenGroup, work] using rolls

/-- The rollback of the same group is at another point. -/
theorem setRoll_carries {s : State} {r r' : Rollback} (work : s.engine.work = .rollingBack r)
    (group : r'.group = r.group) (p : RollPhase) : s.Carries (setRoll r' p s) := by
  refine carries_of_rollingBack work ⟨fun _ => fits_of_rollingBack rfl, fun _ hn => ⟨?_, hn.group⟩⟩
    (fun hs => hs)
  have same : r'.group = s.openGroup := group.trans (group_of_rolls work hn.rolls)
  exact decide_eq_true same

theorem endRollback_carries {s : State} {r : Rollback} (work : s.engine.work = .rollingBack r)
    (r' : Rollback) (outcome : RestoreOutcome) (stop idx : Option Nat) :
    s.Carries (endRollback r' outcome stop idx s) := by
  refine carries_of_rollingBack work (endRollback_bears _ _ _ _ s) fun hs => ?_
  rw [(endRollback_fields _ _ _ _ _).1]
  exact hs

theorem beginRestores_carries {s : State} {r r' : Rollback} (work : s.engine.work = .rollingBack r)
    (group : r'.group = r.group) : s.Carries (beginRestores r' s) := by
  unfold beginRestores
  split
  · exact endRollback_carries work _ _ _ _
  · exact setRoll_carries work group _

/-- The group has been closed and Intake and its tokens renumbered, before the check for the last group. -/
def State.voidedBy (s : State) (g : GroupNo) : State :=
  let s := setGroup ((closeGroup g s).intake.group + 1) (closeGroup g s)
  count .voidedGroups (raise .voided
    (s.setQueue { s.queue with entries := s.queue.entries.map Entry.renumbered }))

theorem voidDone_eq (r : Rollback) (stop : Option Nat) (mismatch : Bool) (s : State) :
    ∃ r' outcome idx, voidDone r stop mismatch s =
      endRollback r' outcome stop idx (checkExhausted (s.voidedBy r.group)) := by
  unfold voidDone
  cases mismatch <;> exact ⟨_, _, _, rfl⟩

theorem sealCount_renumbered (q : List Entry) : sealCount (q.map Entry.renumbered) = sealCount q := by
  have same : ∀ e : Entry, e.renumbered.isSeal = e.isSeal := fun e => by cases e <;> rfl
  simp only [sealCount, List.filter_map, List.length_map]
  exact congrArg List.length (List.filter_congr fun e _ => same e)

/-- C and I both rise by one, and every token keeps its place (R127, R3). The engine is no longer agreed with the
rollback of the old group, which ends here. -/
theorem voidedBy_group {s : State} {r : Rollback} (work : s.engine.work = .rollingBack r)
    (hn : s.Numbers) : (s.voidedBy r.group).intake.group =
      (s.voidedBy r.group).openGroup +
        BitVec.ofNat 32 (sealCount (s.voidedBy r.group).queue.entries) := by
  have count : sealCount (s.voidedBy r.group).queue.entries = sealCount s.queue.entries :=
    sealCount_renumbered _
  have rolled := group_of_rolls work hn.rolls
  have closed : (s.voidedBy r.group).openGroup = s.openGroup + 1 := congrArg (· + 1) rolled
  have group : (s.voidedBy r.group).intake.group = s.intake.group + 1 := rfl
  rw [group, hn.group, closed, count, BitVec.add_assoc, BitVec.add_comm (BitVec.ofNat 32 _) 1,
    BitVec.add_assoc]

/-- The check for the last group leaves engine, Intake and queue alone (R5): its trigger has the action NONE. -/
theorem checkExhausted_fields (s : State) : (checkExhausted s).engine = s.engine ∧
    (checkExhausted s).intake = s.intake ∧ (checkExhausted s).queue = s.queue := by
  unfold checkExhausted
  split
  · cases mode : s.gate.opState with
    | running =>
      rw [trigger_of_running mode]
      obtain ⟨-, intake, -, queue, -, -, engine⟩ :=
        refuseWaiting_fields (raise .froze (setOpState .frozen (addCause .exhausted s)))
      exact ⟨engine, intake, queue⟩
    | frozen =>
      rw [trigger_of_not_stronger mode .exhausted (by simp [Action.strength])]
      exact ⟨rfl, rfl, rfl⟩
    | recovering | unformatted | formatting => simp [trigger, mode]
  · exact ⟨rfl, rfl, rfl⟩

theorem voidDone_carries {s : State} {r : Rollback} (work : s.engine.work = .rollingBack r)
    (stop : Option Nat) (mismatch : Bool) : s.Carries (voidDone r stop mismatch s) := by
  obtain ⟨r', outcome, idx, e⟩ := voidDone_eq r stop mismatch s
  rw [e]
  obtain ⟨gate, intake, -, queue, -, -, engine, -⟩ :=
    endRollback_fields r' outcome stop idx (checkExhausted (s.voidedBy r.group))
  obtain ⟨engine', intake', queue'⟩ := checkExhausted_fields (s.voidedBy r.group)
  rw [engine'] at engine
  have idle := congrArg Engine.work engine
  refine carries_of_rollingBack work ⟨fun _ => fits_of_idle idle, fun _ hn => ⟨?_, ?_⟩⟩ fun hs => ?_
  · exact rollsOpenGroup_of_not_rolling (by simp [idle])
  · rw [intake, queue, intake', queue', State.openGroup, engine]
    exact voidedBy_group work hn
  · rw [gate]
    exact (checkExhausted_carries _).frozen hs

theorem advanceRollback_carries {s : State} {r : Rollback} (work : s.engine.work = .rollingBack r)
    (data : Word) : s.Carries (advanceRollback r data s) := by
  unfold advanceRollback
  split
  · split
    · exact setRoll_carries work rfl _
    · refine beginRestores_carries work ?_
      split <;> rfl
  · dsimp only
    repeat' split
    all_goals exact setRoll_carries work rfl _
  · split
    · exact setRoll_carries work rfl _
    · dsimp only
      split
      · split <;> exact setRoll_carries work (by rfl) _
      · split <;> exact setRoll_carries work (by rfl) _
  · split
    · exact setRoll_carries work rfl _
    · exact voidDone_carries work _ _

/-- A rollback that is ordered begins with the open group, in FROZEN (R124). -/
theorem beginOrdered_carries (s : State) : s.Carries (beginOrdered s) := by
  unfold beginOrdered
  split
  · exact .refl s
  · next o order =>
    split
    · have begun : (setWork (.rollingBack (s.newRollback o
          (.readSlot (s.engine.count.toNat - 1) s.engine.chain []))) (withdrawOrder s)).Carries
          (beginRollback o s) :=
        beginRestores_carries (r := s.newRollback o
          (.readSlot (s.engine.count.toNat - 1) s.engine.chain [])) rfl rfl
      constructor
      case toBears =>
        refine State.Bears.trans ?_ begun.toBears
        exact ⟨fun _ => fits_of_rollingBack rfl, fun _ hn => ⟨decide_eq_true rfl, hn.group⟩⟩
      case frozen => exact fun hs => begun.frozen hs
      case running => exact fun hs => by simp [hs.order] at order
      case unformatted => exact fun hs => by simp [hs.order] at order
      case busy => exact fun hs => by simp [hs.order] at order
    · exact .refl s

theorem startWork_carries (s : State) : s.Carries (startWork s) :=
  (beginOrdered_carries s).trans (takeHead_carries _)

/-! ### Grants and accesses (2.7) -/

theorem holdRead_carries (s : State) : s.Carries (holdRead s) := by
  unfold holdRead
  split
  · exact .refl s
  · split
    · exact carries_of_view rfl
    · exact .refl s

theorem arbitrate_carries (s : State) : s.Carries (arbitrate s) := by
  unfold arbitrate
  repeat' split
  all_goals exact carries_of_view rfl

end Sys2Proof.Machine
end

section
/-! PROOFS. The agreement of the modes and of the group numbers through recovery, Format and the commands, and
the two invariants. -/

namespace Sys2Proof.Machine

/-! ### Recovery (7.6) -/

/-- RECOVERING, whatever the engine does at the moment. -/
structure State.Recovers (s : State) : Prop extends State.Quiet s where
  mode : s.gate.opState = .recovering

/-- FORMATTING, whatever the engine does at the moment. -/
structure State.Formats (s : State) : Prop extends State.Quiet s where
  mode : s.gate.opState = .formatting

/-- Intake stands at the open group. -/
def State.AtOpenGroup (s : State) : Prop := s.intake.group = s.openGroup

/-- An operation of recovery leaves the part recovering or ends recovery, in agreement. -/
structure State.Recovery (s t : State) : Prop where
  modes : s.Recovers → t.ModesAgree
  numbers : s.Recovers → s.AtOpenGroup → t.Numbers

/-- What recovery and Format find settled, and the mode. -/
def State.settledParts (s : State) : OpState × List Entry × Bool × Action × Option Origin :=
  (s.gate.opState, s.queue.entries, s.intake.pendingCommit, s.gate.level, s.gate.order)

theorem State.Quiet.congr {s t : State} (hs : s.Quiet) (h : t.settledParts = s.settledParts) :
    t.Quiet := by
  simp only [State.settledParts, Prod.mk.injEq] at h
  obtain ⟨-, queue, pending, level, order⟩ := h
  exact ⟨queue.trans hs.queue, pending.trans hs.pending, level.trans hs.level, order.trans hs.order⟩

theorem numbers_of_empty {s : State} (work : ∀ r, s.engine.work ≠ .rollingBack r)
    (queue : s.queue.entries = []) (group : s.AtOpenGroup) : s.Numbers where
  rolls := rollsOpenGroup_of_not_rolling work
  group := by
    rw [queue]
    exact group.trans (BitVec.add_zero _).symm

theorem setRec_recovery (r : Recovery) (p : RecPhase) (s : State) : s.Recovery (setRec r p s) where
  modes := fun hs => (modesAgree_iff _).2 (.inl ⟨⟨hs.queue, hs.pending, hs.level, hs.order⟩,
    .inl ⟨hs.mode, rfl⟩⟩)
  numbers := fun hs group => numbers_of_empty (by simp [setRec, setWork]) hs.queue group

/-- What precedes an operation of recovery: the mode stays, the queue stays empty, and Intake stays at the open
group. -/
theorem recovery_behind {s u t : State} (quiet : s.Recovers → u.Recovers)
    (group : s.AtOpenGroup → u.AtOpenGroup) (h : u.Recovery t) : s.Recovery t where
  modes := h.modes ∘ quiet
  numbers := fun hs hg => h.numbers (quiet hs) (group hg)

theorem State.Recovers.congr {s t : State} (hs : s.Recovers) (h : t.settledParts = s.settledParts) :
    t.Recovers :=
  ⟨hs.toQuiet.congr h, (congrArg Prod.fst h).trans hs.mode⟩

theorem noCauses_of_not_any {c : CauseSet} (h : c.any = false) : c = noCauses := by
  cases c
  simp_all [CauseSet.any, noCauses]

/-- Where the gate opens or stays closed with the engine IDLE and the queue empty, all is in agreement (R116). -/
theorem openGate_agrees {s t : State} (hs : s.Quiet) (gate : t.gate = (openGate s).gate)
    (work : t.engine.work = .idle) : t.ModesAgree := by
  obtain ⟨-, -, -, -, -, -, -, mode, -, -, level, order, -⟩ := openGate_spec s
  rw [modesAgree_iff]
  by_cases any : (openGate s).gate.causes.any = true
  · rw [if_pos any] at mode
    exact .inr (.inr (.inr ⟨fits_of_idle work, gate ▸ mode⟩))
  · rw [if_neg any] at mode
    refine .inr (.inr (.inl ⟨fits_of_idle work, gate ▸ mode, ?_, ?_, ?_, ?_⟩))
    · rw [gate]
      exact noCauses_of_not_any (Bool.eq_false_iff.2 any)
    · rw [gate, level, hs.level]
    · rw [gate, order, hs.order]
    · simp [State.rollingBack, work]

theorem openGate_parts (s : State) : (openGate s).intake = s.intake ∧ (openGate s).engine = s.engine ∧
    (openGate s).queue = s.queue := by
  obtain ⟨intake, engine, -, -, queue, -⟩ := openGate_spec s
  exact ⟨intake, engine, queue⟩

/-- The part ends up UNFORMATTED with the engine IDLE and the queue empty. -/
theorem unformatted_agrees {s t : State} (hs : s.Quiet) (gate : t.gate = (setOpState .unformatted s).gate)
    (queue : t.queue.entries = s.queue.entries)
    (pending : t.intake.pendingCommit = s.intake.pendingCommit) (work : t.engine.work = .idle) :
    t.ModesAgree := by
  rw [modesAgree_iff]
  refine .inr (.inl ⟨fits_of_idle work, ?_, pending.trans hs.pending, ?_, ?_, ?_⟩)
  · rw [gate]
    rfl
  · rw [queue, hs.queue]
    rfl
  · rw [gate]
    exact hs.order
  · simp [State.rollingBack, work]

theorem State.Numbers.of_idle {s t : State} (queue : t.queue.entries = s.queue.entries)
    (group : t.intake.group = s.intake.group) (closed : t.engine.closed = s.engine.closed)
    (work : t.engine.work = .idle) (empty : s.queue.entries = []) (hs : s.AtOpenGroup) : t.Numbers := by
  refine numbers_of_empty (by simp [work]) (queue.trans empty) ?_
  rw [State.AtOpenGroup, group, State.openGroup, closed]
  exact hs

theorem fillReport_quiet (r : RestoreReport) {s : State} (hs : s.Quiet) : (fillReport r s).Quiet :=
  hs.congr rfl

theorem endRecovery_recovery (r : Recovery) (outcome : RestoreOutcome) (s : State) :
    s.Recovery (endRecovery r outcome openGate s) := by
  constructor
  case modes => exact fun hs => openGate_agrees (fillReport_quiet _ hs.toQuiet) rfl rfl
  case numbers =>
    intro hs group
    obtain ⟨y, queue, intake, engine, e⟩ : ∃ y : State, y.queue.entries = s.queue.entries ∧
        y.intake = s.intake ∧ y.engine = s.engine ∧ endRecovery r outcome openGate s =
          raise .recovered ((openGate y).setEngine { (openGate y).engine with
            work := .idle, count := 0, chain := 0, abandoned := none }) :=
      ⟨_, by rfl, by rfl, by rfl, rfl⟩
    obtain ⟨intake', engine', queue'⟩ := openGate_parts y
    rw [e]
    have closed := congrArg Engine.closed (engine'.trans engine)
    refine .of_idle (s := s) ?_ ?_ closed rfl hs.queue group
    · exact (congrArg Posted.entries queue').trans queue
    · exact congrArg Intake.group (intake'.trans intake)

theorem endRecovery_unformatted (r : Recovery) (outcome : RestoreOutcome) (s : State) :
    s.Recovery (endRecovery r outcome (setOpState .unformatted) s) where
  modes := fun hs => unformatted_agrees (fillReport_quiet _ hs.toQuiet) rfl rfl rfl rfl
  numbers := fun hs group => .of_idle (s := s) rfl rfl rfl rfl hs.queue group

theorem rejectStartUpTable_recovery (r : Recovery) (e : TableOutcome) (read index : Nat) (s : State) :
    s.Recovery (rejectStartUpTable r e read index s) := by
  refine recovery_behind (fun hs => ?_) (fun h => ?_) (endRecovery_recovery r _ _)
  · exact hs.congr rfl
  · exact h

theorem acceptStartUpTable_recovery (r : Recovery) (t : Table) (s : State) :
    s.Recovery (acceptStartUpTable r t s) := by
  refine recovery_behind (fun hs => ?_) (fun h => ?_) (endRecovery_recovery r _ _)
  · exact hs.congr rfl
  · exact h

theorem beginTableLoad_recovery (r : Recovery) (s : State) : s.Recovery (beginTableLoad r s) := by
  unfold beginTableLoad
  dsimp only
  split
  · refine recovery_behind (fun hs => ?_) (fun h => ?_) (endRecovery_recovery r _ _)
    · exact hs.congr rfl
    · exact h
  · split
    · exact rejectStartUpTable_recovery _ _ _ _ s
    · split
      · exact rejectStartUpTable_recovery _ _ _ _ s
      · exact setRec_recovery _ _ s

theorem takeStartUpDescriptor_recovery (r : Recovery) (kept : List Descriptor) (ws : List Word)
    (s : State) : s.Recovery (takeStartUpDescriptor r kept ws s) := by
  unfold takeStartUpDescriptor
  dsimp only
  split
  · exact rejectStartUpTable_recovery _ _ _ _ s
  · split
    · split
      · exact rejectStartUpTable_recovery _ _ _ _ s
      · exact setRec_recovery _ _ s
    · split
      · exact rejectStartUpTable_recovery _ _ _ _ s
      · split
        · exact rejectStartUpTable_recovery _ _ _ _ s
        · exact acceptStartUpTable_recovery _ _ s

theorem endScan_recovery (r : Recovery) (found : Nat) (reason : StopReason) (s : State) :
    s.Recovery (endScan r found reason s) := by
  cases found with
  | zero => exact beginTableLoad_recovery _ s
  | succ j => exact setRec_recovery _ _ s

theorem scanSlot_recovery (r : Recovery) (j : Nat) (chain : Word) (ws : List Word) (s : State) :
    s.Recovery (scanSlot r j chain ws s) := by
  unfold scanSlot
  split
  · dsimp only
    refine recovery_behind (u := s.setEngine { s.engine with count := BitVec.ofNat 16 (j + 1) })
      (fun hs => hs.congr rfl) (fun h => h) ?_
    split
    · exact setRec_recovery _ _ _
    · exact endScan_recovery _ _ _ _
  all_goals exact endScan_recovery _ _ _ s

theorem nextRestore_recovery (r : Recovery) (j : Nat) (s : State) : s.Recovery (nextRestore r j s) := by
  cases j <;> exact setRec_recovery _ _ s

theorem restoreSlot_recovery (r : Recovery) (j : Nat) (ws : List Word) (s : State) :
    s.Recovery (restoreSlot r j ws s) := by
  unfold restoreSlot
  split
  · exact setRec_recovery _ _ s
  · exact nextRestore_recovery _ _ s

theorem recoverExhausted_parts (s : State) : (recoverExhausted s).queue = s.queue ∧
    (recoverExhausted s).intake = s.intake ∧ (recoverExhausted s).engine = s.engine ∧
    (recoverExhausted s).gate.opState = s.gate.opState ∧
    (recoverExhausted s).gate.level = s.gate.level ∧ (recoverExhausted s).gate.order = s.gate.order := by
  unfold recoverExhausted
  split <;> exact ⟨rfl, rfl, rfl, rfl, rfl, rfl⟩

theorem recoverExhausted_recovers {s : State} (hs : s.Recovers) : (recoverExhausted s).Recovers := by
  obtain ⟨queue, intake, -, mode, level, order⟩ := recoverExhausted_parts s
  exact hs.congr (by simp only [State.settledParts, queue, intake, mode, level, order])

/-- Intake is set to the open group. -/
theorem recoverExhausted_atOpenGroup {s : State} (h : s.AtOpenGroup) :
    (recoverExhausted s).AtOpenGroup := by
  obtain ⟨-, intake, engine, -⟩ := recoverExhausted_parts s
  rw [State.AtOpenGroup, State.openGroup, intake, engine]
  exact h

theorem recoveryVoided_recovery (r : Recovery) (s : State) : s.Recovery (recoveryVoided r s) := by
  refine recovery_behind (fun hs => ?_) (fun _ => ?_) (beginTableLoad_recovery r _)
  · exact recoverExhausted_recovers (hs.congr rfl)
  · exact recoverExhausted_atOpenGroup rfl

theorem decideRecovery_recovery (r : Recovery) (ws0 ws1 : List Word) (s : State) :
    s.Recovery (decideRecovery r ws0 ws1 s) := by
  unfold decideRecovery
  dsimp only
  split
  · exact endRecovery_unformatted _ _ s
  · refine recovery_behind (fun hs => ?_) (fun h => ?_) (endRecovery_recovery _ _ _)
    · exact hs.congr rfl
    · exact h
  · next idx a _ =>
    refine recovery_behind (u := recoverExhausted (setGroup
        (s.setEngine { s.engine with closed := a.group, durable := a.durable }).openGroup
        (s.setEngine { s.engine with closed := a.group, durable := a.durable })))
      (fun hs => recoverExhausted_recovers (hs.congr rfl))
      (fun _ => recoverExhausted_atOpenGroup rfl) ?_
    split
    · exact beginTableLoad_recovery _ _
    · exact setRec_recovery _ _ _

theorem advanceRecovery_recovery (r : Recovery) (data : Word) (s : State) :
    s.Recovery (advanceRecovery r data s) := by
  unfold advanceRecovery
  dsimp only
  split
  · split
    · exact setRec_recovery _ _ s
    · exact decideRecovery_recovery _ _ _ s
  · split
    · exact setRec_recovery _ _ s
    · exact scanSlot_recovery _ _ _ _ s
  · split
    · exact setRec_recovery _ _ s
    · exact restoreSlot_recovery _ _ _ s
  · split
    · exact setRec_recovery _ _ s
    · exact nextRestore_recovery _ _ s
  · split
    · exact setRec_recovery _ _ s
    · exact recoveryVoided_recovery _ s
  · split
    · exact setRec_recovery _ _ s
    · exact takeStartUpDescriptor_recovery _ _ _ s

/-! ### Format (9.3) -/

/-- An operation of Format leaves the part formatting or ends Format, in agreement. -/
structure State.Formatting (s t : State) : Prop where
  modes : s.Formats → t.ModesAgree
  numbers : s.Formats → s.AtOpenGroup → t.Numbers

theorem setFormat_formatting (f : Format) (p : FormatPhase) (s : State) :
    s.Formatting (setFormat f p s) where
  modes := fun hs => (modesAgree_iff _).2 (.inl ⟨⟨hs.queue, hs.pending, hs.level, hs.order⟩,
    .inr ⟨hs.mode, rfl⟩⟩)
  numbers := fun hs group => numbers_of_empty (by simp [setFormat, setWork]) hs.queue group

theorem endFormat_formatting (f : Format) (s : State) : s.Formatting (endFormat f s) := by
  obtain ⟨y, gate, queue, pending, group, closed, e⟩ : ∃ y : State, y.gate = s.gate ∧
      y.queue.entries = s.queue.entries ∧ y.intake.pendingCommit = s.intake.pendingCommit ∧
      y.intake.group = 1 ∧ y.engine.closed = 0 ∧
      endFormat f s = raise .formatted (setWork .idle (openGate y)) :=
    ⟨_, by rfl, by rfl, by rfl, by rfl, by rfl, rfl⟩
  obtain ⟨intake', engine', queue'⟩ := openGate_parts y
  rw [e]
  constructor
  case modes =>
    intro hs
    exact openGate_agrees (hs.toQuiet.congr (by simp only [State.settledParts, gate, queue, pending]))
      rfl rfl
  case numbers =>
    intro hs _
    have still := congrArg Engine.closed engine'
    refine .of_idle (s := y) ?_ ?_ still rfl (queue.trans hs.queue) ?_
    · exact congrArg Posted.entries queue'
    · exact congrArg Intake.group intake'
    · rw [State.AtOpenGroup, State.openGroup, group, closed]
      rfl

theorem failFormat_formatting (s : State) : s.Formatting (failFormat s) where
  modes := fun hs => unformatted_agrees hs.toQuiet rfl rfl rfl rfl
  numbers := fun hs _ => numbers_of_empty (by simp [failFormat, setWork]) hs.queue rfl

theorem advanceFormat_formatting (f : Format) (data : Word) (s : State) :
    s.Formatting (advanceFormat f data s) := by
  unfold advanceFormat
  dsimp only
  split
  · split <;> exact setFormat_formatting _ _ s
  · split <;> exact setFormat_formatting _ _ s
  · split <;> exact setFormat_formatting _ _ s
  · split
    · exact setFormat_formatting _ _ s
    · exact endFormat_formatting f s
    · exact setFormat_formatting _ _ s
  · split
    · exact setFormat_formatting _ _ s
    · exact failFormat_formatting s

/-! ### What every command keeps -/

/-- Both agreements are kept from one state to another. -/
structure State.Agrees (s t : State) : Prop where
  modes : s.ModesAgree → t.ModesAgree
  numbers : s.ModesAgree → s.Numbers → t.Numbers

theorem numbers_of_view {s t : State} (h : t.view = s.view) (hn : s.Numbers) : t.Numbers := by
  simp only [State.view, Prod.mk.injEq] at h
  obtain ⟨-, work, closed, queue, -, group⟩ := h
  exact hn.of_same work closed queue group

theorem State.InBusy.agrees {s t : State} (h : t.view = s.view) (hs : s.InBusy) :
    t.ModesAgree ∧ (s.Numbers → t.Numbers) := by
  exact ⟨(modesAgree_iff t).2 (.inl (hs.of_view h)), numbers_of_view h⟩

/-- What is carried in every mode is kept. -/
theorem State.Carries.agrees {s t : State} (h : s.Carries t) : s.Agrees t where
  modes := fun hs => by
    obtain busy | unformatted | running | frozen := (modesAgree_iff s).1 hs
    · exact (busy.agrees (h.busy busy)).1
    · exact (modesAgree_iff t).2 (.inr (.inl (h.unformatted unformatted)))
    · exact (modesAgree_iff t).2 (.inr (.inr ((h.running running).symm)))
    · exact (modesAgree_iff t).2 (.inr (.inr (.inr ⟨h.fits frozen.toFits, h.frozen frozen.mode⟩)))
  numbers := fun hs hn => by
    obtain busy | unformatted | running | frozen := (modesAgree_iff s).1 hs
    · exact (busy.agrees (h.busy busy)).2 hn
    · exact h.numbers unformatted.toFits hn
    · exact h.numbers running.toFits hn
    · exact h.numbers frozen.toFits hn

theorem agrees_of_view {s t : State} (h : t.view = s.view) : s.Agrees t := (carries_of_view h).agrees

theorem State.Agrees.trans {s u t : State} (h : s.Agrees u) (k : u.Agrees t) : s.Agrees t where
  modes := k.modes ∘ h.modes
  numbers := fun hs hn => k.numbers (h.modes hs) (h.numbers hs hn)

/-- A busy part is in agreement only with the engine at the work of its mode. -/
theorem inBusy_of_work {s : State} (hs : s.ModesAgree)
    (work : s.engine.work.isRecovering = true ∨ s.engine.work.isFormatting = true) : s.InBusy := by
  obtain busy | unformatted | running | frozen := (modesAgree_iff s).1 hs
  · exact busy
  · simp [unformatted.recovery, unformatted.format] at work
  · simp [running.recovery, running.format] at work
  · simp [frozen.recovery, frozen.format] at work

theorem atOpenGroup_of_empty {s : State} (hn : s.Numbers) (queue : s.queue.entries = []) :
    s.AtOpenGroup := by
  have group := hn.group
  rw [queue] at group
  exact group.trans (BitVec.add_zero _)

theorem advanceEngine_agrees (data : Word) (s : State) : s.Agrees (advanceEngine data s) := by
  unfold advanceEngine
  split
  · exact (State.Carries.refl s).agrees
  · next work => exact (advanceDrain_carries work data).agrees
  · next work => exact (advanceRollback_carries work data).agrees
  · next r work =>
    have recovers : s.ModesAgree → s.Recovers := fun hs =>
      have busy := inBusy_of_work hs (.inl (by rw [work]; rfl))
      ⟨busy.toQuiet, hs.1.2 (by rw [work]; rfl)⟩
    have recovery := advanceRecovery_recovery r data s
    exact ⟨fun hs => recovery.modes (recovers hs), fun hs hn =>
      recovery.numbers (recovers hs) (atOpenGroup_of_empty hn (recovers hs).queue)⟩
  · next f work =>
    have formats : s.ModesAgree → s.Formats := fun hs =>
      have busy := inBusy_of_work hs (.inr (by rw [work]; rfl))
      ⟨busy.toQuiet, hs.2.1.2 (by rw [work]; rfl)⟩
    have formatting := advanceFormat_formatting f data s
    exact ⟨fun hs => formatting.modes (formats hs), fun hs hn =>
      formatting.numbers (formats hs) (atOpenGroup_of_empty hn (formats hs).queue)⟩

theorem completeAccess_agrees (o : Owner) (a : Access) (answer : Option Word) (s : State) :
    s.Agrees (completeAccess o a answer s) := by
  have answered : s.Carries ((s.setMem (s.memAfter a answer)).setPort
      { (s.setMem (s.memAfter a answer)).port with access := none }) := carries_of_view rfl
  cases o with
  | upstream => exact (answered.trans (finishRead_carries _ _)).agrees
  | engine => exact answered.agrees.trans (advanceEngine_agrees _ _)

/-- THAW that is done opens the gate with no order held and no rollback in progress (R120, R121). -/
theorem thaw_agrees {s : State} (row : s.thawResult = .done) : s.Agrees (setOpState .running
    (s.setGate { s.gate with causes := noCauses, level := .none })) := by
  have frozen : s.gate.opState = .frozen := by
    by_contra h
    simp [State.thawResult, h] at row
  have settled : s.gate.order = none ∧ s.rollingBack = false := by
    by_contra h
    have busy : (s.gate.order.isSome || s.rollingBack) = true := by
      by_contra free
      exact h (by simpa using free)
    simp [State.thawResult, frozen, busy] at row
  constructor
  case modes =>
    intro hs
    obtain ⟨recovers, formats, -, -, head, -⟩ := hs
    have recovery : s.engine.work.isRecovering = false :=
      Bool.eq_false_iff.2 fun h => by simp [recovers.2 h] at frozen
    have format : s.engine.work.isFormatting = false :=
      Bool.eq_false_iff.2 fun h => by simp [formats.2 h] at frozen
    exact (modesAgree_iff _).2 (.inr (.inr (.inl
      ⟨⟨recovery, format, head⟩, rfl, rfl, rfl, settled.1, settled.2⟩)))
  case numbers => exact fun _ hn => hn.of_same (by rfl) (by rfl) (by rfl) (by rfl)

/-- FORMAT that is accepted finds the queue empty, the engine IDLE and nothing held (R154). -/
theorem beginFormat_agrees {s : State} (free : s.formatBusy = false) (base : Long) (slots : Word) :
    s.Agrees (beginFormat base slots s) := by
  simp only [State.formatBusy, Bool.or_eq_false_iff, Bool.not_eq_false', List.isEmpty_iff,
    Option.isSome_eq_false_iff, Option.isNone_iff_eq_none] at free
  obtain ⟨⟨⟨⟨queue, -⟩, order⟩, pending⟩, -⟩ := free
  constructor
  case modes =>
    exact fun _ => (modesAgree_iff _).2 (.inl ⟨⟨queue, pending, rfl, order⟩, .inr ⟨rfl, rfl⟩⟩)
  case numbers =>
    intro _ hn
    have group := atOpenGroup_of_empty hn queue
    exact numbers_of_empty (by simp [beginFormat]) queue group

theorem lineTrigger_carries (l : InputLine) (s : State) : s.Carries (lineTrigger l s) :=
  trigger_carries _ _ s

theorem maskTriggers_carries (pfail fault : Bool) (s : State) :
    s.Carries (maskTriggers pfail fault s) := by
  have both : ∀ l l', s.Carries (lineTrigger l (lineTrigger l' (drawFree s))) := fun l l' =>
    ((carries_of_view (by rfl)).trans (lineTrigger_carries l' (drawFree s))).trans
      (lineTrigger_carries l _)
  unfold maskTriggers
  split
  · exact .refl s
  · exact lineTrigger_carries _ s
  · exact lineTrigger_carries _ s
  · dsimp only
    split <;> exact both _ _

theorem settingEffect_carries (x : Setting) (before s : State) : s.Carries (settingEffect x before s) := by
  cases x with
  | freezeMask => exact maskTriggers_carries _ _ s
  | scope => exact carries_of_view (by simp [settingEffect, State.view])
  | _ => exact carries_of_view rfl

theorem rollback_carries {s : State} (frozen : s.gate.opState = .frozen) :
    s.Carries (setLevel .rollback (placeOrder .command (stopOrder s))) := by
  have bears := ((stopOrder_bears s).trans (placeOrder_bears .command _)).trans
    (bears_setGate { (placeOrder .command (stopOrder s)).gate with level := .rollback } _)
  refine carries_of_open (.inr frozen) bears (.inr ?_) fun hs => by simp [hs.mode] at frozen
  simp [setLevel, placeOrder_gate]

theorem linkEffect_agrees {c : Instr} {s u : State} (h : LinkEffect c s u) : s.Agrees u := by
  cases h with
  | nothing => exact (State.Carries.refl s).agrees
  | commit => exact ((claimFirst_carries s).trans (takeCommit_carries _)).agrees
  | loadTable base gate space =>
    refine ((claimFirst_carries s).trans ?_).agrees
    have same : (claimFirst s).gate = s.gate := by simp
    rw [← same] at gate
    have bears := bears_append (s := claimFirst s) (t := appendEntry (.tableToken base)
      ((claimFirst s).setRegion { (claimFirst s).region with state := .pending base })) rfl rfl rfl rfl rfl
    refine carries_of_open gate bears (.inr rfl) fun hs => .inr ?_
    exact ⟨bears.fits hs.toFits, hs.mode, hs.causes, hs.level, hs.order, hs.rolling⟩
  | thaw row => exact thaw_agrees row
  | rollback frozen => exact (rollback_carries frozen).agrees
  | freeze a => exact (trigger_carries _ _ s).agrees
  | format base slots permitted free => exact beginFormat_agrees free base slots
  | set x v accepted new =>
    exact ((carries_of_view (by simp [State.view])).trans (settingEffect_carries x s _)).agrees
  | clearEvents mask command => exact agrees_of_view rfl
  | clearCounters => exact agrees_of_view rfl
  | clearWatch n => exact agrees_of_view rfl

theorem reset_agrees (straps : Straps) (csnLow : Bool) (mem : Memory) (free : Nat) (pending : List Instr) :
    (State.afterReset straps csnLow mem free pending).ModesAgree ∧
    (State.afterReset straps csnLow mem free pending).Numbers :=
  ⟨(modesAgree_iff _).2 (.inl ⟨⟨rfl, rfl, rfl, rfl⟩, .inl ⟨rfl, rfl⟩⟩), ⟨rfl, rfl⟩⟩

theorem State.Agrees.of_carries {s t : State} (h : s.ModesAgree → s.Carries t) : s.Agrees t where
  modes := fun hs => (h hs).agrees.modes hs
  numbers := fun hs => (h hs).agrees.numbers hs

/-- A commit is pending in RUNNING and FROZEN only (R52, R131). -/
theorem open_of_pendingCommit {s : State} (hs : s.ModesAgree) (h : s.intake.pendingCommit = true) :
    s.gate.opState = .running ∨ s.gate.opState = .frozen := by
  obtain busy | unformatted | running | frozen := (modesAgree_iff s).1 hs
  · simp [busy.pending] at h
  · simp [unformatted.pending] at h
  · exact .inl running.mode
  · exact .inr frozen.mode

/-- The claim of a pending commit that makes no token drops it. -/
theorem pendingDropped_agrees (auto : AutoCommit) (s : State) :
    s.Agrees (s.setIntake { s.intake with pendingCommit := false, auto := auto }) :=
  .of_carries fun hs => by
    cases pending : s.intake.pendingCommit with
    | true => exact intake_carries (open_of_pendingCommit hs pending) rfl
    | false => exact carries_of_view (by simp [State.view, pending])

theorem pendingToken_agrees {s : State} (held : s.intake.pendingCommit = true) :
    s.Agrees (makeToken (s.setIntake { s.intake with pendingCommit := false })) :=
  .of_carries fun hs =>
    have mode := open_of_pendingCommit hs held
    have dropped : s.Carries (s.setIntake { s.intake with pendingCommit := false }) :=
      intake_carries mode rfl
    dropped.trans (makeToken_carries mode)

theorem exec_agrees {c : Instr} {s t : State} (h : exec c s = .next t) : s.Agrees t := by
  cases effect_of_exec h with
  | nothing => exact (State.Carries.refl s).agrees
  | @link u l effect =>
    have linked : u.Carries (u.setLink l) := carries_of_view rfl
    exact (linkEffect_agrees effect).trans linked.agrees
  | reset msize maint command =>
    obtain ⟨modes, numbers⟩ := reset_agrees { msize := msize, maint := maint } s.link.csnLow s.memCut
      (s.free + 1) s.pending
    exact ⟨fun _ => modes, fun _ _ => numbers⟩
  | read a free => exact (takeRead_carries a s).agrees
  | write a data lanes free => exact (takeWrite_carries a data lanes s).agrees
  | noLanes free => exact (openCycle_carries s).agrees
  | claim => exact (claimFirst_carries s).agrees
  | pendingToken held space work => exact pendingToken_agrees held
  | pendingDropped auto => exact pendingDropped_agrees auto s
  | expire current => exact (expireHold_carries _ s).agrees
  | grant free =>
    exact (((startWork_carries s).trans (holdRead_carries _)).trans (arbitrate_carries _)).agrees
  | complete answer command access => exact completeAccess_agrees _ _ answer s
  | takeHead => exact (takeHead_carries s).agrees
  | begins => exact (beginOrdered_carries s).agrees
  | sealEdge =>
    have stored : s.Carries (storeSeal true s) := carries_of_view rfl
    exact ((stored.trans (claimFirst_carries _)).trans (takeCommit_carries _)).agrees
  | samples level pfail fault => exact agrees_of_view rfl
  | lineTrigger l n =>
    refine (State.Carries.trans ?_ (lineTrigger_carries l _)).agrees
    cases l <;> exact carries_of_view rfl
  | tick auto x => exact agrees_of_view rfl
  | auto => exact ((claimFirst_carries s).trans (takeAuto_carries _)).agrees
  | pulseEnd command timed => exact agrees_of_view rfl
  | chipSelect => exact agrees_of_view rfl

/-- Settles O14: every operation carries each mode of the part to one in agreement. -/
theorem stepKeepsModes : Obligations.StepKeepsModes := by
  intro s t hs h
  exact step_keeps (P := State.ModesAgree) (fun _ _ _ h => h) (fun _ _ h => h) (fun _ h => h)
    (fun _ _ _ hs h => (exec_agrees h).modes hs) hs h

/-- Settles O15: a token that is made adds one to I, a token that is sealed one to C, and a rollback of the open
group one to both. -/
theorem stepKeepsGroups : Obligations.StepKeepsGroups := by
  intro s t hs h
  refine (groupsAgree_iff t).2 (step_keeps (P := fun s => s.ModesAgree ∧ s.Numbers)
    (fun _ _ _ h => ⟨h.1, numbers_of_view (by rfl) h.2⟩)
    (fun _ _ h => ⟨h.1, numbers_of_view (by rfl) h.2⟩) (fun _ h => ⟨h.1, numbers_of_view (by rfl) h.2⟩)
    (fun _ _ _ hs h => ⟨(exec_agrees h).modes hs.1, (exec_agrees h).numbers hs.1 hs.2⟩)
    ((groupsAgree_iff s).1 hs) h)

end Sys2Proof.Machine
end

section
/-! PROOFS. Steps without a command, the completeness of the commands, reset, and where memory is written. -/

namespace Sys2Proof.Machine

/-! ### Every command answers (00) -/

/-- Settles O3: only an upstream cycle asks whether a cycle is current. -/
theorem commandsComplete : Obligations.CommandsComplete := by
  constructor
  · intro c s h
    cases c with
    | upstreamRead a =>
      have free : s.up.cycle = none := h.resolve_left (by simp [Instr.isCycle])
      exact ⟨_, by simp only [exec, execUpstreamRead, free]; rfl⟩
    | upstreamWrite a w u l =>
      have free : s.up.cycle = none := h.resolve_left (by simp [Instr.isCycle])
      cases lanes : lanesOf u l with
      | none => exact ⟨_, by simp only [exec, execUpstreamWrite, free, lanes]; rfl⟩
      | some x => exact ⟨_, by simp only [exec, execUpstreamWrite, free, lanes]; rfl⟩
    | _ => exact ⟨_, rfl⟩
  · intro c s h current
    have busy : s.up.cycle.isSome = true := Option.isSome_iff_ne_none.2 current
    cases c with
    | upstreamRead a => simp [exec, execUpstreamRead, busy]
    | upstreamWrite a w u l => simp [exec, execUpstreamWrite, busy]
    | _ => cases h

/-! ### Reset (2.6) -/

/-- Settles O4: the state right after reset, field by field. -/
theorem resetValues : Obligations.ResetValues := by
  intro msize maint s
  have report : resetReport.bytes = List.replicate 28 0 := by decide
  have counters : zeroCounters.bytes = List.replicate 16 0 := by decide
  refine ⟨_, rfl, ?_⟩
  and_intros
  all_goals try rfl
  · exact fun l => by cases l <;> exact ⟨rfl, rfl, rfl, rfl⟩
  · exact fun n => match n with
      | 0 | 1 | 2 | 3 => ⟨rfl, rfl, rfl⟩
  · exact report
  · exact counters
  · exact fun _ => rfl

/-- Settles O5: the empty memory, queue and filter, and RECOVERING with an engine that recovers. -/
theorem resetIsSafe : Obligations.ResetIsSafe := by
  obtain ⟨modes, numbers⟩ := reset_agrees { msize := 0, maint := false } false [] 0 []
  have groups := (groupsAgree_iff State.reset).2 ⟨modes, numbers⟩
  refine ⟨rfl, ⟨rfl, rfl⟩, Nat.zero_le _, ⟨Nat.zero_le _, .nil, .nil, rfl⟩, by decide, ⟨rfl, rfl⟩,
    by decide, by decide, modes, groups⟩

/-- Settles O19: a write without a lane opens the cycle and nothing more, and the end of the chip-select negates
UBERR. -/
theorem cycleEnds : Obligations.CycleEnds := by
  constructor
  · intro s a w free
    simp [exec, execUpstreamWrite, free, lanesOf, openCycle, State.setUp]
  · exact fun s => rfl

/-! ### Steps without a command (log 1) -/

/-- What a CLK period and the choice of an act may move. -/
def State.Idled (s t : State) : Prop :=
  ∃ timer pfail fault pulse time free pending, t = { s with
      up := { s.up with timer := timer }
      gate := { s.gate with pfail := pfail, fault := fault }
      events := { s.events with pulse := pulse }
      time := time, free := free, pending := pending } ∧ time.tick = s.time.tick

theorem clockPeriod_idled (s : State) : s.Idled (clockPeriod s) := by
  by_cases within : s.time.clk + 1 < s.time.perUs
  · rw [clockPeriod_within s within]
    exact ⟨_, _, _, _, _, _, _, rfl, rfl⟩
  · rw [clockPeriod_last s (Nat.not_lt.1 within)]
    exact ⟨_, _, _, _, _, _, _, rfl, rfl⟩

theorem idle_idled (s : State) : s.Idled (idle s) := by
  by_cases acts : s.dueActs = [] ∧ s.readyActs = []
  · rw [idle_nothing s acts.1 acts.2]
    exact clockPeriod_idled s
  · obtain ⟨i, -, e⟩ | ⟨-, e⟩ := idle_cases s (not_and_or.1 acts) <;> rw [e]
    · exact ⟨_, _, _, _, _, _, _, rfl, rfl⟩
    · have drawn := clockPeriod_idled { s with free := s.free + 1 }
      exact drawn

theorem lineDue_iff (s : State) (l : InputLine) : s.lineDue l = true ↔
    (s.input l).run ≠ none ∧ (s.input l).qualified = true ∧ (s.input l).active = false := by
  simp [State.lineDue, Option.isSome_iff_ne_none, and_assoc]

theorem readClaim_isSome_iff (s : State) :
    s.readClaim.isSome = true ↔ ∃ c, s.up.cycle = some c ∧ c.phase = .reading := by
  unfold State.readClaim
  cases s.up.cycle with
  | none => simp
  | some c => by_cases h : c.phase = .reading <;> simp [h]

theorem writeMayClaim_iff (s : State) : s.writeMayClaim = true ↔
    s.intake.pendingCommit = false ∧ s.queue.entries.length < 16 := by
  simp [State.writeMayClaim, hasSpace_iff, and_comm]

theorem rollbackReady_iff (s : State) : s.rollbackReady = true ↔
    s.engine.work = .idle ∧ s.gate.order ≠ none ∧ s.startCondition = true := by
  simp [State.rollbackReady, Option.isSome_iff_ne_none, and_assoc]

theorem heldAtHead_iff {s : State} {e : Entry} {q : List Entry} (h : s.queue.entries = e :: q) :
    s.heldAtHead = true ↔ ∃ g sw, e = .sealToken g sw ∧ s.engine.abandoned = some g := by
  cases e <;> simp [State.heldAtHead, h]

/-- The engine may take a head that R76 does not hold, with no rollback to begin first (R65). -/
theorem headReady_iff {s : State} {e : Entry} {q : List Entry} (h : s.queue.entries = e :: q) :
    s.headReady = true ↔ s.engine.work = .idle ∧ (s.gate.order = none ∨ s.startCondition = false) ∧
      ∀ g sw, e = .sealToken g sw → s.engine.abandoned ≠ some g := by
  have ready : s.rollbackReady = false ↔
      (s.engine.work = .idle → s.gate.order = none ∨ s.startCondition = false) := by
    rw [← Bool.not_eq_true, rollbackReady_iff]
    simp only [not_and, ne_eq, Bool.not_eq_true]
    exact ⟨fun f idle => or_iff_not_imp_left.2 (f idle), fun f idle => or_iff_not_imp_left.1 (f idle)⟩
  have held : s.heldAtHead = false ↔ ∀ g sw, e = .sealToken g sw → s.engine.abandoned ≠ some g := by
    rw [← Bool.not_eq_true, heldAtHead_iff h]
    simp only [not_exists, not_and, ne_eq]
  simp only [State.headReady, Bool.and_eq_true, decide_eq_true_eq, Bool.not_eq_true', ready, held]
  exact ⟨fun ⟨⟨idle, r⟩, k⟩ => ⟨idle, r idle, k⟩, fun ⟨idle, r, k⟩ => ⟨⟨idle, fun _ => r⟩, k⟩⟩

theorem due_iff (s : State) (i : Instr) : i ∈ s.dueActs ↔
    (i = .waitLimitExpiry ∧ ∃ w, s.up.timer = some w ∧ w.limit ≤ w.elapsed) ∨
    (∃ l, i = .lineEvent l ∧ (s.input l).run ≠ none ∧ (s.input l).qualified = true ∧
      (s.input l).active = false) ∨
    (i = .tick ∧ 1000 ≤ s.time.us) ∨ (i = .autoCommitExpiry ∧ s.intake.auto.due = true) ∨
    (i = .attnPulseEnd ∧ s.events.pulse = some 0) := by
  rw [mem_dueActs, waitExpired_iff, lineDue_iff, lineDue_iff]
  constructor
  · rintro (⟨w, rfl⟩ | ⟨l, rfl⟩ | ⟨l, rfl⟩ | ⟨us, rfl⟩ | ⟨due, rfl⟩ | ⟨pulse, rfl⟩)
    · exact .inl ⟨rfl, w⟩
    · exact .inr (.inl ⟨.pfail, rfl, l⟩)
    · exact .inr (.inl ⟨.fault, rfl, l⟩)
    · exact .inr (.inr (.inl ⟨rfl, us⟩))
    · exact .inr (.inr (.inr (.inl ⟨rfl, due⟩)))
    · exact .inr (.inr (.inr (.inr ⟨rfl, pulse⟩)))
  · rintro (⟨rfl, w⟩ | ⟨l, rfl, due⟩ | ⟨rfl, us⟩ | ⟨rfl, due⟩ | ⟨rfl, pulse⟩)
    · exact .inl ⟨w, rfl⟩
    · cases l with
      | pfail => exact .inr (.inl ⟨due, rfl⟩)
      | fault => exact .inr (.inr (.inl ⟨due, rfl⟩))
    · exact .inr (.inr (.inr (.inl ⟨us, rfl⟩)))
    · exact .inr (.inr (.inr (.inr (.inl ⟨due, rfl⟩))))
    · exact .inr (.inr (.inr (.inr (.inr ⟨pulse, rfl⟩))))

theorem headTakes_iff (s : State) : (s.queue.entries ≠ [] ∧ s.headReady = true) ↔
    s.engine.work = .idle ∧ (s.gate.order = none ∨ s.startCondition = false) ∧
      ∃ e q, s.queue.entries = e :: q ∧ ∀ g sw, e = .sealToken g sw → s.engine.abandoned ≠ some g := by
  cases hq : s.queue.entries with
  | nil => simp
  | cons e q =>
    rw [headReady_iff hq]
    constructor
    · exact fun ⟨_, idle, order, held⟩ => ⟨idle, order, e, q, rfl, held⟩
    · rintro ⟨idle, order, _, _, ⟨rfl, rfl⟩, held⟩
      exact ⟨by simp, idle, order, held⟩

theorem ready_iff (s : State) (i : Instr) : i ∈ s.readyActs ↔
    (i = .pendingCommitClaim ∧ s.intake.pendingCommit = true ∧ s.queue.entries.length < 16) ∨
    (i = .waitingWriteClaim ∧ (∃ c, s.up.cycle = some c ∧ c.phase = .waitingWrite) ∧
      s.intake.pendingCommit = false ∧ s.queue.entries.length < 16) ∨
    (i = .arbiterGrant ∧ s.port.access = none ∧
      ((∃ c, s.up.cycle = some c ∧ c.phase = .reading) ∨ s.engineAccess ≠ none)) ∨
    (i = .accessComplete none ∧ s.port.access ≠ none) ∨
    (i = .takeHead ∧ s.engine.work = .idle ∧ (s.gate.order = none ∨ s.startCondition = false) ∧
      ∃ e q, s.queue.entries = e :: q ∧ ∀ g sw, e = .sealToken g sw → s.engine.abandoned ≠ some g) ∨
    (i = .liveRollbackBegin ∧ s.engine.work = .idle ∧ s.gate.order ≠ none ∧
      s.startCondition = true) := by
  have claimed : s.portClaimed = true ↔ s.port.access = none ∧
      ((∃ c, s.up.cycle = some c ∧ c.phase = .reading) ∨ s.engineAccess ≠ none) := by
    rw [State.portClaimed, Bool.and_eq_true, Bool.or_eq_true, readClaim_isSome_iff,
      Option.isNone_iff_eq_none, Option.isSome_iff_ne_none]
  rw [mem_readyActs, hasSpace_iff, writeWaits_iff, writeMayClaim_iff, claimed,
    Option.isSome_iff_ne_none, headTakes_iff, rollbackReady_iff]
  simp only [and_comm (b := i = _)]

/-- One microsecond later a run in progress is longer, and a line at its active level begins one (R104). -/
theorem resample_spec (s : State) (l : InputLine) :
    (∀ n, (s.input l).run = some n → s.resample l = { s.input l with
      run := some (n + 1), qualified := decide (s.settings.inputFilter.toNat ≤ n + 1) }) ∧
    ((s.input l).run = none → (s.input l).last = some (s.activeLevel l) → s.resample l = { s.input l with
      run := some 0, qualified := decide (s.settings.inputFilter = 0) }) ∧
    ((s.input l).run = none → (s.input l).last ≠ some (s.activeLevel l) → s.resample l = s.input l) := by
  have zero : s.settings.inputFilter.toNat = 0 ↔ s.settings.inputFilter = 0 := by
    rw [BitVec.toNat_eq]
    rfl
  refine ⟨fun n run => ?_, fun run last => ?_, fun run last => ?_⟩
  · simp [State.resample, run]
  · simp [State.resample, run, last, zero]
  · simp [State.resample, run, last]

/-- Settles O2: an idle step draws an act or lets one CLK period pass. -/
theorem idleKeepsWork : Obligations.IdleKeepsWork := by
  refine ⟨fun s waits => ⟨idle s, step_of_idle waits, ?_⟩, due_iff, ready_iff, fun s => ⟨?_, ?_⟩⟩
  · have choice := And.intro (idle_nothing s) (idle_cases s)
    obtain ⟨timer, pfail, fault, pulse, time, free, pending, e, tick⟩ := idle_idled s
    rw [e] at choice ⊢
    exact ⟨rfl, rfl, rfl, rfl, rfl, rfl, rfl, rfl, rfl, rfl, rfl, rfl, rfl, rfl, rfl, rfl, rfl, rfl, rfl,
      rfl, rfl, rfl, rfl, rfl, rfl, tick, choice⟩
  · exact clockPeriod_within s
  · intro last
    refine ⟨s.resample .pfail, s.resample .fault, clockPeriod_last s last, ?_⟩
    rintro l x (⟨rfl, rfl⟩ | ⟨rfl, rfl⟩)
    · exact resample_spec s .pfail
    · exact resample_spec s .fault

/-! ### Memory is written by accesses (2.6, 2.7) -/

/-- An access reaches no byte outside the word of its write. -/
theorem memAfter_byte_other {s : State} {a : Access} {i : Nat}
    (h : a.write = none ∨ i / 2 ≠ a.addr % s.top) (answer : Option Word) :
    (s.memAfter a answer).byte i = s.mem.byte i := by
  cases write : a.write with
  | none => simp only [State.memAfter, write]
  | some x =>
    have outside : i / 2 ≠ s.wordOf a := h.resolve_left (by simp [write])
    cases answer <;> simp only [State.memAfter, write] <;>
      exact Memory.byte_writeWord_other _ _ _ _ _ outside

theorem memCut_byte_other {s : State} {i : Nat}
    (h : ∀ o a, s.port.access = some (o, a) → a.write = none ∨ i / 2 ≠ a.addr % s.top) :
    s.memCut.byte i = s.mem.byte i := by
  unfold State.memCut
  split
  · next o a access =>
    split
    · next write =>
      have outside : i / 2 ≠ s.wordOf a := (h o a access).resolve_left (by simp [write])
      exact Memory.byte_writeWord_other _ _ _ _ _ outside
    · rfl
  · rfl

/-- A write stores the lanes it carries. -/
theorem memAfter_write {s : State} (canonical : s.MemoryCanonical) {a : Access} {w : Word}
    {lanes : Lanes} (write : a.write = some (w, lanes)) :
    (s.memAfter a none).byte (2 * (a.addr % s.top)) =
      (if lanes = .lower then s.mem.byte (2 * (a.addr % s.top)) else hiByte w) ∧
    (s.memAfter a none).byte (2 * (a.addr % s.top) + 1) =
      (if lanes = .upper then s.mem.byte (2 * (a.addr % s.top) + 1) else loByte w) := by
  have after : s.memAfter a none = s.mem.writeWord (s.wordOf a) w lanes := by
    simp [State.memAfter, write]
  have upper := Memory.byte_writeWord_upper s.mem (s.wordOf a) w lanes canonical
  have lower := Memory.byte_writeWord_lower s.mem (s.wordOf a) w lanes canonical
  rw [after]
  cases lanes <;> exact ⟨upper, lower⟩

/-- A memory that answers a write with another word holds that word. -/
theorem memAfter_answered {s : State} (canonical : s.MemoryCanonical) {a : Access}
    (write : a.write ≠ none) (x : Word) :
    (s.memAfter a (some x)).byte (2 * (a.addr % s.top)) = hiByte x ∧
    (s.memAfter a (some x)).byte (2 * (a.addr % s.top) + 1) = loByte x := by
  obtain ⟨⟨w, lanes⟩, write⟩ := Option.ne_none_iff_exists'.1 write
  have after : s.memAfter a (some x) = s.mem.writeWord (s.wordOf a) x .both := by
    simp [State.memAfter, write]
  rw [after]
  exact ⟨Memory.byte_writeWord_upper s.mem (s.wordOf a) x .both canonical,
    Memory.byte_writeWord_lower s.mem (s.wordOf a) x .both canonical⟩

theorem exec_accessComplete {s : State} {o : Owner} {a : Access} (h : s.port.access = some (o, a))
    (answer : Option Word) :
    exec (.accessComplete answer) s = .next (completeAccess o a answer s) := by
  simp [exec, execAccessComplete, h]

/-- Settles O17: a completed access leaves memory as its write makes it, and a reset as its cut does. -/
theorem memoryWrittenByAccesses : Obligations.MemoryWrittenByAccesses := by
  refine ⟨fun _ _ _ _ _ => ⟨rfl, rfl, rfl, rfl⟩,
    fun c s t access reset h => effect_mem (effect_of_exec h) access reset, ?_, ?_, ?_⟩
  · intro answer s t o a access h
    rw [exec_accessComplete access, Host.Outcome.next.injEq] at h
    subst h
    rw [(completeAccess_keeps o a answer s).2.2.2.2.1]
    refine ⟨fun i outside => memAfter_byte_other outside answer, fun w lanes write canonical => ⟨?_, ?_⟩⟩
    · rintro rfl
      exact memAfter_write canonical write
    · rintro x rfl
      exact memAfter_answered canonical (by simp [write]) x
  · intro answer s t free h
    simp only [exec, execAccessComplete, free, Host.Outcome.next.injEq] at h
    rw [← h]
  · intro m b s t h i outside
    simp only [exec, execReset, Host.Outcome.next.injEq] at h
    rw [← h]
    exact memCut_byte_other outside

end Sys2Proof.Machine
end

section
/-! PROOFS. Upstream cycles that arrive: the state refusal, the lookup, the watch units, and how a read and a
write go on. -/

namespace Sys2Proof.Machine

/-! ### Arrivals (2.2, 2.3) -/

theorem exec_upstreamRead {s : State} (free : s.up.cycle = none) (a : Addr) :
    exec (.upstreamRead a) s = .next (takeRead a s) := by
  simp [exec, execUpstreamRead, free]

theorem exec_upstreamWrite {s : State} (free : s.up.cycle = none) {upper lower : Bool} {lanes : Lanes}
    (h : lanesOf upper lower = some lanes) (a : Addr) (data : Word) :
    exec (.upstreamWrite a data upper lower) s = .next (takeWrite a data lanes s) := by
  simp [exec, execUpstreamWrite, free, h]

/-- A refusal as the cycle arrives. -/
theorem refuse_opened_spec (a : Addr) (d : Direction) (why : Reason) (tag : Word) (s : State) :
    s.Refuses (refuse a d why tag (openCycle s)) a d why tag ∧
    (refuse a d why tag (openCycle s)).watch = s.watch ∧
    s.FlagsGain (refuse a d why tag (openCycle s)) (fun e => decide (e = why.event)) :=
  refuse_spec a d why tag (openCycle s)

theorem refusesState_true {s : State}
    (h : s.gate.opState = .recovering ∨ s.gate.opState = .formatting) : s.refusesState = true := by
  obtain h | h := h <;> simp [State.refusesState, h]

theorem takeRead_of_busy {s : State} (h : s.gate.opState = .recovering ∨ s.gate.opState = .formatting)
    (a : Addr) : takeRead a s = refuse (s.cycleAddr a) .read .state 0 (openCycle s) :=
  if_pos (refusesState_true (s := openCycle s) h)

theorem takeWrite_of_busy {s : State} (h : s.gate.opState = .recovering ∨ s.gate.opState = .formatting)
    (a : Addr) (data : Word) (lanes : Lanes) :
    takeWrite a data lanes s = refuse (s.cycleAddr a) .write .state 0 (openCycle s) :=
  if_pos (refusesState_true (s := openCycle s) h)

/-- Settles O18: the operating state is asked before lookup and comparison. -/
theorem stateRefusal : Obligations.StateRefusal := by
  intro s a w u l busy free some_lane
  have read := refuse_opened_spec (s.cycleAddr a) .read .state 0 s
  have write := refuse_opened_spec (s.cycleAddr a) .write .state 0 s
  obtain ⟨lanes, hl⟩ : ∃ lanes, lanesOf u l = some lanes := by
    cases u <;> cases l <;> simp_all [lanesOf]
  refine ⟨⟨_, exec_upstreamRead free a, ?_⟩, ⟨_, exec_upstreamWrite free hl a w, ?_⟩⟩
  · rw [takeRead_of_busy busy]
    exact read
  · rw [takeWrite_of_busy busy]
    exact write

/-! ### Class and region tag (2.3) -/

theorem top_le (s : State) : s.top ≤ 2 ^ 21 :=
  Nat.pow_le_pow_right (by decide) (by have := s.straps.msize.isLt; omega)

theorem top_pos (s : State) : 0 < s.top := Nat.pow_pos (by decide)

theorem cycleAddr_toNat (s : State) (a : Addr) : (s.cycleAddr a).toNat = a.toNat % s.top := by
  have below := Nat.mod_lt a.toNat (top_pos s)
  have top := top_le s
  rw [State.cycleAddr, BitVec.toNat_ofNat, Nat.mod_eq_of_lt (by omega)]

theorem mem_reservedAreas (s : State) (r : Area) : r ∈ s.reservedAreas ↔
    r = s.anchorBlock ∨ s.window = some r ∨ (∃ x, s.region.active = some x ∧ x.area = r) ∨
    (∃ x, s.region.retiring = some x ∧ x.area = r) ∨ s.stagedArea = some r := by
  simp [State.reservedAreas]

theorem window_eq_some (s : State) (r : Area) : s.window = some r ↔
    s.engine.durable.slotCount ≠ 0 ∧ Area.mk s.engine.durable.windowBase.toNat
      (s.engine.durable.windowBase.toNat + 16 * s.engine.durable.slotCount.toNat - 1) = r := by
  by_cases h : s.engine.durable.slotCount = 0 <;> simp [State.window, h]

theorem stagedArea_eq_some (s : State) (r : Area) : s.stagedArea = some r ↔
    (∃ x, s.region.state = .ready x ∧ x.area = r) ∨
    ∃ b, s.region.state = .pending b ∧ s.pendingArea b = r := by
  cases h : s.region.state <;> simp [State.stagedArea, h]

theorem holds_iff (r : Area) (w : Nat) : r.holds w = true ↔ r.first ≤ w ∧ w ≤ r.last := by
  simp [Area.holds]

/-- An address is reserved by the anchor block, the window, a table or the pending area (R24 steps 1 to 3). -/
theorem reserved_iff (s : State) (w : Nat) : s.reservedAreas.any (fun r => r.holds w) = true ↔
    (s.top - 32 ≤ w ∧ w ≤ s.top - 1) ∨
    (s.engine.durable.slotCount ≠ 0 ∧ s.engine.durable.windowBase.toNat ≤ w ∧
      w ≤ s.engine.durable.windowBase.toNat + 16 * s.engine.durable.slotCount.toNat - 1) ∨
    (∃ x, (s.region.active = some x ∨ s.region.retiring = some x ∨ s.region.state = .ready x) ∧
      x.base.toNat ≤ w ∧ w ≤ x.base.toNat + 8 * x.descs.length - 1) ∨
    (∃ b, s.region.state = .pending b ∧ b.toNat ≤ w ∧ w ≤ b.toNat + 127 ∧ w ≤ s.top - 1) := by
  simp only [List.any_eq_true, mem_reservedAreas, window_eq_some, stagedArea_eq_some, holds_iff]
  constructor
  · rintro ⟨r, rfl | ⟨some_slots, rfl⟩ | ⟨x, table, rfl⟩ | ⟨x, table, rfl⟩ | ⟨x, table, rfl⟩ |
      ⟨b, pending, rfl⟩, holds⟩
    · exact .inl holds
    · exact .inr (.inl ⟨some_slots, holds⟩)
    · exact .inr (.inr (.inl ⟨x, .inl table, holds⟩))
    · exact .inr (.inr (.inl ⟨x, .inr (.inl table), holds⟩))
    · exact .inr (.inr (.inl ⟨x, .inr (.inr table), holds⟩))
    · exact .inr (.inr (.inr ⟨b, pending, holds.1, Nat.le_min.1 holds.2⟩))
  · rintro (holds | ⟨some_slots, holds⟩ | ⟨x, table | table | table, holds⟩ | ⟨b, pending, above, below⟩)
    · exact ⟨s.anchorBlock, .inl rfl, holds⟩
    · exact ⟨_, .inr (.inl ⟨some_slots, rfl⟩), holds⟩
    · exact ⟨x.area, .inr (.inr (.inl ⟨x, table, rfl⟩)), holds⟩
    · exact ⟨x.area, .inr (.inr (.inr (.inl ⟨x, table, rfl⟩))), holds⟩
    · exact ⟨x.area, .inr (.inr (.inr (.inr (.inl ⟨x, table, rfl⟩)))), holds⟩
    · exact ⟨s.pendingArea b, .inr (.inr (.inr (.inr (.inr ⟨b, pending, rfl⟩)))), above,
        Nat.le_min.2 below⟩

theorem covers_iff (d : Descriptor) (w : Nat) :
    d.covers w = true ↔ d.first.toNat ≤ w ∧ w ≤ d.last.toNat := by
  simp [Descriptor.covers]

theorem covers_eq_false_iff (d : Descriptor) (w : Nat) :
    d.covers w = false ↔ w < d.first.toNat ∨ d.last.toNat < w := by
  rw [← Bool.not_eq_true, covers_iff]
  omega

/-- The lookup of an open part, from reserved areas and the first covering descriptor. -/
theorem lookup_of_open {s : State} (h : s.gate.opState = .running ∨ s.gate.opState = .frozen) (a : Addr) :
    s.lookup a = if s.reservedAreas.any (fun r => r.holds a.toNat) then (.reserved, 0)
      else match s.coveringDesc a.toNat with
        | some d => (d.cls, d.tag)
        | none => (.direct, 0) := by
  obtain h | h := h <;> simp only [State.lookup, h] <;> rfl

theorem coveringDesc_some {s : State} {x : Table} (active : s.region.active = some x)
    {before after : List Descriptor} {d : Descriptor} (descs : x.descs = before ++ d :: after) {w : Nat}
    (covers : d.covers w = true) (first : ∀ e ∈ before, e.covers w = false) :
    s.coveringDesc w = some d := by
  rw [State.coveringDesc, active]
  exact List.find?_eq_some_iff_append.2 ⟨covers, before, after, descs, fun e he => by simp [first e he]⟩

theorem coveringDesc_none {s : State} {w : Nat}
    (h : ∀ x, s.region.active = some x → ∀ e ∈ x.descs, e.covers w = false) :
    s.coveringDesc w = none := by
  unfold State.coveringDesc
  split
  · rfl
  · next x active => exact List.find?_eq_none.2 fun e he => by simp [h x active e he]

/-- Settles O20: RESERVED comes first, then the first covering descriptor, then DIRECT. -/
theorem lookupOrder : Obligations.LookupOrder := by
  intro s a held hheld
  have reserved : held ↔ s.reservedAreas.any (fun r => r.holds a.toNat) = true :=
    hheld.trans (reserved_iff s a.toNat).symm
  refine ⟨cycleAddr_toNat s a, rfl, fun _ => rfl, fun h => by simp [State.lookup, h], fun mode => ?_⟩
  rw [lookup_of_open mode]
  refine ⟨fun h => if_pos (reserved.1 h), fun x before d after h active descs low high first => ?_,
    fun h outside => ?_⟩
  · have covers : d.covers a.toNat = true := (covers_iff d _).2 ⟨low, high⟩
    rw [if_neg (mt reserved.2 h), coveringDesc_some active descs covers fun e he =>
      (covers_eq_false_iff e _).2 (first e he)]
  · rw [if_neg (mt reserved.2 h), coveringDesc_none fun x active e he =>
      (covers_eq_false_iff e _).2 (outside x active e he)]

/-! ### Watch units (8.2, 8.3) -/

theorem ne_zero_iff_getLsbD (x : Word) : x ≠ 0 ↔ ∃ i < 16, x.getLsbD i = true := by
  constructor
  · intro h
    by_contra none_
    refine h (BitVec.eq_of_getLsbD_eq fun i hi => ?_)
    rw [Bool.eq_false_iff.2 fun set => none_ ⟨i, hi, set⟩]
    simp
  · rintro ⟨i, -, set⟩ rfl
    simp at set

theorem dataMatches_iff (w : WatchSettings) (c : WatchCapture) : w.dataMatches c = true ↔
    (w.mask = 0 ∨ ∃ i < 16, w.mask.getLsbD i = true ∧
      (if i < 8 then c.lanes.hasLower else c.lanes.hasUpper) = true) ∧
    (∀ i < 16, w.mask.getLsbD i = true →
      (if i < 8 then c.lanes.hasLower else c.lanes.hasUpper) = true →
      c.data.getLsbD i = w.value.getLsbD i) := by
  have carried : w.mask &&& c.lanes.bits ≠ 0 ↔ ∃ i < 16, w.mask.getLsbD i = true ∧
      (if i < 8 then c.lanes.hasLower else c.lanes.hasUpper) = true := by
    rw [ne_zero_iff_getLsbD]
    refine exists_congr fun i => and_congr_right fun hi => ?_
    rw [BitVec.getLsbD_and, lanes_bits _ _ hi, Bool.and_eq_true]
  have equal : (c.data ^^^ w.value) &&& w.mask &&& c.lanes.bits = 0 ↔
      ∀ i < 16, w.mask.getLsbD i = true →
        (if i < 8 then c.lanes.hasLower else c.lanes.hasUpper) = true →
        c.data.getLsbD i = w.value.getLsbD i := by
    rw [← not_iff_not, ← ne_eq, ne_zero_iff_getLsbD]
    simp only [not_forall, exists_prop]
    refine exists_congr fun i => and_congr_right fun hi => ?_
    rw [BitVec.getLsbD_and, BitVec.getLsbD_and, BitVec.getLsbD_xor, lanes_bits _ _ hi]
    simp only [Bool.and_eq_true, bne_iff_ne]
    exact ⟨fun ⟨⟨h1, h2⟩, h3⟩ => ⟨h2, h3, h1⟩, fun ⟨h2, h3, h1⟩ => ⟨⟨h1, h2⟩, h3⟩⟩
  rw [WatchSettings.dataMatches, Bool.and_eq_true, decide_eq_true_eq, decide_eq_true_eq, carried, equal]

theorem enabled_or_iff (b m : Bool) : (!b || m) = true ↔ (b = true → m = true) := by
  cases b <;> simp

theorem hits_iff (w : WatchSettings) (c : WatchCapture) : w.hits c = true ↔
    w.enables ≠ 0 ∧
    (w.enables.getLsbD 0 = true → w.low.toNat ≤ c.addr.toNat ∧ c.addr.toNat ≤ w.high.toNat) ∧
    (w.enables.getLsbD 1 = true → w.direction = c.direction) ∧
    (w.enables.getLsbD 2 = true → w.dataMatches c = true) ∧
    (w.enables.getLsbD 3 = true → w.cls = c.cls) := by
  simp only [WatchSettings.hits, Bool.and_eq_true, enabled_or_iff, decide_eq_true_eq,
    WatchSettings.addressMatches, and_assoc]

theorem anyHit_iff (held : Four WatchSettings) (c : WatchCapture) (a : WatchAction) :
    anyHit held c a = true ↔ ∃ n : Fin 4, (held.get n).hits c = true ∧ (held.get n).action = a := by
  simp only [anyHit, Bool.or_eq_true, Bool.and_eq_true, decide_eq_true_eq]
  constructor
  · rintro (((h | h) | h) | h)
    · exact ⟨0, h⟩
    · exact ⟨1, h⟩
    · exact ⟨2, h⟩
    · exact ⟨3, h⟩
  · rintro ⟨n, h⟩
    match n with
    | 0 => exact .inl (.inl (.inl h))
    | 1 => exact .inl (.inl (.inr h))
    | 2 => exact .inl (.inr h)
    | 3 => exact .inr h

/-- The outcome is the strongest action among the units that hit (R149). -/
theorem watchOutcome_cases (held : Four WatchSettings) (c : WatchCapture) :
    (anyHit held c .freeze = true ∧ watchOutcome held c = some .freeze) ∨
    (anyHit held c .freeze = false ∧ anyHit held c .refuse = true ∧
      watchOutcome held c = some .refuse) ∨
    (anyHit held c .freeze = false ∧ anyHit held c .refuse = false ∧ anyHit held c .note = true ∧
      watchOutcome held c = some .note) ∨
    (anyHit held c .freeze = false ∧ anyHit held c .refuse = false ∧ anyHit held c .note = false ∧
      watchOutcome held c = none) := by
  unfold watchOutcome
  cases anyHit held c .freeze <;> cases anyHit held c .refuse <;> cases anyHit held c .note <;> simp

/-- A hit is found under the action of its unit. -/
theorem anyHit_of_hits {held : Four WatchSettings} {c : WatchCapture} {n : Fin 4}
    (h : (held.get n).hits c = true) : anyHit held c (held.get n).action = true :=
  (anyHit_iff held c _).2 ⟨n, h, rfl⟩

theorem not_hits_of_no_action {held : Four WatchSettings} {c : WatchCapture} {a : WatchAction}
    (h : anyHit held c a = false) {n : Fin 4} (action : (held.get n).action = a) :
    (held.get n).hits c = false := by
  by_contra hits
  have := anyHit_of_hits (Bool.not_eq_false _ ▸ hits)
  simp [action, h] at this

theorem watchOutcome_none_iff (held : Four WatchSettings) (c : WatchCapture) :
    watchOutcome held c = none ↔ ∀ n : Fin 4, (held.get n).hits c = false := by
  obtain ⟨any, e⟩ | ⟨-, any, e⟩ | ⟨-, -, any, e⟩ | ⟨freeze, refuse, note, e⟩ :=
    watchOutcome_cases held c <;> rw [e]
  · obtain ⟨n, hits, -⟩ := (anyHit_iff held c _).1 any
    exact iff_of_false (by simp) fun h => by simp [h n] at hits
  · obtain ⟨n, hits, -⟩ := (anyHit_iff held c _).1 any
    exact iff_of_false (by simp) fun h => by simp [h n] at hits
  · obtain ⟨n, hits, -⟩ := (anyHit_iff held c _).1 any
    exact iff_of_false (by simp) fun h => by simp [h n] at hits
  · refine iff_of_true rfl fun n => ?_
    cases action : (held.get n).action with
    | freeze => exact not_hits_of_no_action freeze action
    | refuse => exact not_hits_of_no_action refuse action
    | note => exact not_hits_of_no_action note action

theorem watchOutcome_of_hits {held : Four WatchSettings} {c : WatchCapture} {n : Fin 4}
    (h : (held.get n).hits c = true) : ∃ o, watchOutcome held c = some o ∧
      (o = .note → (held.get n).action = .note) ∧ (o = .refuse → (held.get n).action ≠ .freeze) := by
  have any := anyHit_of_hits h
  obtain ⟨-, e⟩ | ⟨freeze, -, e⟩ | ⟨freeze, refuse, -, e⟩ | ⟨-, -, -, e⟩ := watchOutcome_cases held c
  · exact ⟨_, e, by simp, by simp⟩
  · exact ⟨_, e, by simp, fun _ action => by simp [action, freeze] at any⟩
  · refine ⟨_, e, fun _ => ?_, by simp⟩
    cases action : (held.get n).action with
    | note => rfl
    | refuse => simp [action, refuse] at any
    | freeze => simp [action, freeze] at any
  · simp [(watchOutcome_none_iff held c).1 e n] at h

theorem hits_of_watchOutcome {held : Four WatchSettings} {c : WatchCapture} {o : WatchAction}
    (h : watchOutcome held c = some o) :
    ∃ n : Fin 4, (held.get n).hits c = true ∧ (held.get n).action = o := by
  rw [← anyHit_iff]
  obtain ⟨any, e⟩ | ⟨-, any, e⟩ | ⟨-, -, any, e⟩ | ⟨-, -, -, e⟩ := watchOutcome_cases held c <;>
    rw [e] at h <;> cases h <;> exact any

/-- The lane a cycle does not carry is seen as 00h (R143). -/
theorem and_bits (w : Word) (lanes : Lanes) : w &&& lanes.bits =
    joinBytes (if lanes.hasUpper then hiByte w else 0) (if lanes.hasLower then loByte w else 0) := by
  apply BitVec.eq_of_getLsbD_eq
  intro i hi
  simp only [BitVec.getLsbD_and, lanes_bits lanes i hi, joinBytes, BitVec.getLsbD_append, hiByte, loByte]
  by_cases low : i < 8
  · cases lanes <;> simp [low, Lanes.hasLower]
  · have back : 8 + (i - 8) = i := by omega
    cases lanes <;> simp [low, Lanes.hasUpper, back] <;> omega

theorem watchSettings_get (s : State) (n : Fin 4) :
    s.watchSettings.get n = (s.watch.get n).settings :=
  match n with
  | 0 | 1 | 2 | 3 => rfl

theorem watchRefuses_iff (o : Option WatchAction) :
    watchRefuses o = true ↔ o = some .refuse ∨ o = some .freeze := by
  cases o with
  | none => simp [watchRefuses]
  | some a => cases a <;> simp [watchRefuses]

/-- Settles O21: hits field by field, the outcome by the strongest action that hits, and what a comparison
sees. -/
theorem watchMatching : Obligations.WatchMatching := by
  refine ⟨fun w c => ?_, fun held c => ⟨watchOutcome_none_iff held c, fun n => watchOutcome_of_hits,
    fun o => hits_of_watchOutcome⟩, fun s a d lanes w c => ⟨?_, (lanes_has_iff lanes).1,
    (lanes_has_iff lanes).2.2.1, watchSettings_get s, watchRefuses_iff, rfl, rfl, rfl, rfl⟩⟩
  · rw [hits_iff, dataMatches_iff]
  · rw [State.observe, and_bits]

end Sys2Proof.Machine
end

section
/-! PROOFS. How reads and writes go on: refusals, acceptance, waiting, claims, and the ends of reads. -/

namespace Sys2Proof.Machine

/-! ### Reads that arrive (R27, R30) -/

theorem refusesState_of_lookup {s : State} {a : Addr} (h : (s.lookup a).1 ≠ .direct) :
    s.refusesState = false := by
  cases mode : s.gate.opState <;> simp_all [State.lookup, State.refusesState]

theorem takeRead_of_closed {s : State} {a : Addr} (h : (s.lookup (s.cycleAddr a)).1 = .closed) :
    takeRead a s = watchTrigger (watchOutcome s.watchSettings
        (s.observe (s.cycleAddr a) .read .both 0xFFFF#16 .closed))
      (refuse (s.cycleAddr a) .read .cls (s.lookup (s.cycleAddr a)).2
        (compareAll s.watchSettings (s.observe (s.cycleAddr a) .read .both 0xFFFF#16 .closed)
          (openCycle s))) := by
  have taken : (openCycle s).refusesState = false :=
    refusesState_of_lookup (s := s) (by rw [h]; simp)
  have closed : ((openCycle s).lookup (s.cycleAddr a)).1 = .closed := h
  exact (if_neg (Bool.eq_false_iff.1 taken)).trans (if_pos closed)

theorem takeRead_of_open {s : State} (h1 : s.gate.opState ≠ .recovering)
    (h2 : s.gate.opState ≠ .formatting) {a : Addr} (h : (s.lookup (s.cycleAddr a)).1 ≠ .closed) :
    takeRead a s = holdCycle
      { addr := s.cycleAddr a, direction := .read, lanes := .both, data := 0,
        cls := (s.lookup (s.cycleAddr a)).1, tag := (s.lookup (s.cycleAddr a)).2,
        watch := s.watchSettings,
        phase := if decide ((s.lookup (s.cycleAddr a)).1 = .journaled) && s.rollingBack then .readHeld
          else .reading }
      (if decide ((s.lookup (s.cycleAddr a)).1 = .journaled) && s.rollingBack then some s.freshTimer
        else none) (openCycle s) := by
  have taken : (openCycle s).refusesState = false := refusesState_false s h1 h2
  have closed : ((openCycle s).lookup (s.cycleAddr a)).1 ≠ .closed := h
  exact (if_neg (Bool.eq_false_iff.1 taken)).trans (if_neg closed)

/-- Settles O22: a CLOSED read is compared, refused, and its FREEZE outcome passed on. -/
theorem closedReadRefused : Obligations.ClosedReadRefused := by
  intro s a free closed
  refine ⟨_, ?_, refuse_compare_spec s _ .read .cls _ s.watchSettings _⟩
  rw [exec_upstreamRead free, takeRead_of_closed closed]

/-- Settles O23: every other read is held as the current cycle. -/
theorem readAwaitsPort : Obligations.ReadAwaitsPort := by
  intro s a waits free h1 h2 open_ hw
  subst hw
  rw [exec_upstreamRead free, takeRead_of_open h1 h2 open_]
  rfl

/-! ### Writes that arrive (R31) -/

theorem refusesWrites_iff (c : RegionClass) :
    c.refusesWrites = true ↔ c = .reserved ∨ c = .guarded ∨ c = .closed := by
  cases c <;> simp [RegionClass.refusesWrites]

theorem gateRefuses_iff (s : State) (c : RegionClass) : s.gateRefuses c = true ↔
    (c = .journaled ∧ (s.gate.opState = .frozen ∨ s.intake.group = 0xFFFFFFFF#32)) ∨
    (c = .direct ∧ s.gate.opState = .frozen ∧ s.settings.scope = .allWrites) := by
  have usedUp : Config.usedUpGroup = 0xFFFFFFFF#32 := rfl
  rw [← usedUp]
  cases c <;> simp [State.gateRefuses, State.gateCovers, State.inScope]

/-- A class that takes writes, let through by the gate. -/
theorem gateRefuses_false {s : State} {c : RegionClass}
    (h : (c = .journaled ∧ s.gate.opState ≠ .frozen ∧ s.intake.group ≠ 0xFFFFFFFF#32) ∨
      (c = .direct ∧ (s.gate.opState ≠ .frozen ∨ s.settings.scope = .journaledOnly))) :
    c.refusesWrites = false ∧ s.gateRefuses c = false ∧ (c = .journaled ∨ c = .direct) := by
  have refuses := gateRefuses_iff s c
  obtain ⟨rfl, frozen, group⟩ | ⟨rfl, frozen | scope⟩ := h
  · exact ⟨rfl, Bool.eq_false_iff.2 (mt refuses.1 (by simp [frozen, group])), .inl rfl⟩
  · exact ⟨rfl, Bool.eq_false_iff.2 (mt refuses.1 (by simp [frozen])), .inr rfl⟩
  · exact ⟨rfl, Bool.eq_false_iff.2 (mt refuses.1 (by simp [scope])), .inr rfl⟩

/-- A comparison bears on no gate. -/
theorem compared_gateRefuses (held : Four WatchSettings) (seen : WatchCapture) (s : State)
    (c : RegionClass) : (compareAll held seen (openCycle s)).gateRefuses c = s.gateRefuses c := by
  simp [State.gateRefuses, State.gateCovers, State.inScope, openCycle]

/-- Settles O24: class, watch outcome and gate refuse in this order. -/
theorem writeRefused : Obligations.WriteRefused := by
  intro s a w u l lanes cls tag seen o free h1 h2 hl lookup hs ho
  have taken := takeWrite_eq s a w lanes cls tag seen o h1 h2 lookup hs ho
  have spec := fun why => refuse_compare_spec s (s.cycleAddr a) .write why tag s.watchSettings seen
  simp only [exec_upstreamWrite free hl]
  rw [taken]
  refine ⟨fun refuses => ⟨_, ?_, spec .cls⟩, fun writes outcome => ⟨_, ?_, spec .watch⟩,
    fun outcome covers => ⟨_, ?_, spec .gate⟩⟩
  · rw [if_pos ((refusesWrites_iff cls).2 refuses)]
  · have writable : ¬ cls.refusesWrites = true := by
      obtain rfl | rfl := writes <;> simp [RegionClass.refusesWrites]
    rw [if_neg writable, if_pos ((watchRefuses_iff o).2 outcome)]
  · have writable : ¬ cls.refusesWrites = true := by
      obtain ⟨rfl, -⟩ | ⟨rfl, -⟩ := covers <;> simp [RegionClass.refusesWrites]
    have passes : ¬ watchRefuses o = true := by
      obtain rfl | rfl := outcome <;> simp [watchRefuses]
    have gate : (compareAll s.watchSettings seen (openCycle s)).gateRefuses cls = true := by
      rw [compared_gateRefuses]
      exact (gateRefuses_iff s cls).2 covers
    rw [if_neg writable, if_neg passes, if_pos gate]

/-- A write that nothing refuses is accepted or waits. -/
theorem takeWrite_of_passes {s : State} {a : Addr} {w : Word} {lanes : Lanes} {cls : RegionClass}
    {tag : Word} {seen : WatchCapture} (h1 : s.gate.opState ≠ .recovering)
    (h2 : s.gate.opState ≠ .formatting) (lookup : s.lookup (s.cycleAddr a) = (cls, tag))
    (hs : seen = s.observe (s.cycleAddr a) .write lanes w cls)
    (passes : watchRefuses (watchOutcome s.watchSettings seen) = false)
    (writable : cls.refusesWrites = false) (gate : s.gateRefuses cls = false) :
    takeWrite a w lanes s = acceptOrWait (s.cycleAddr a) w lanes cls tag
      (compareAll s.watchSettings seen (openCycle s)) := by
  have gate' : (compareAll s.watchSettings seen (openCycle s)).gateRefuses cls = false := by
    rw [compared_gateRefuses, gate]
  have taken := takeWrite_eq s a w lanes cls tag seen _ h1 h2 lookup hs rfl
  simpa [passes, writable, gate'] using taken

/-- Settles O25: behind class, watch outcome and gate a write needs a free entry and no pending commit. -/
theorem writeAcceptedOrWaits : Obligations.WriteAcceptedOrWaits := by
  refine ⟨rfl, rfl, rfl, rfl, lineOf_toNat, ?_⟩
  intro s a w u l lanes cls tag seen free h1 h2 hl lookup hs outcome gate
  have passes : watchRefuses (watchOutcome s.watchSettings seen) = false := by
    obtain h | h := outcome <;> rw [h] <;> rfl
  obtain ⟨writable, through, kind⟩ := gateRefuses_false gate
  have taken := takeWrite_of_passes h1 h2 lookup hs passes writable through
  obtain ⟨compares, gains⟩ := compareAll_spec s.watchSettings seen (openCycle s)
  have space : (compareAll s.watchSettings seen (openCycle s)).hasSpace = true ∧
      (compareAll s.watchSettings seen (openCycle s)).intake.pendingCommit = false ↔
      s.queue.entries.length < 16 ∧ s.intake.pendingCommit = false := by
    simp [hasSpace_iff, openCycle]
  simp only [exec_upstreamWrite free hl, taken, acceptOrWait]
  constructor
  · intro room
    refine ⟨_, by rw [if_pos (space.2 room)], ?_, ?_, ?_, ?_⟩
    · exact accepts_trans s _ _ _ _ _ _ (acceptWrite_spec _ _ _ _ _ kind)
        (compareAll_openCycle_frame s _ _)
    · cases cls <;> simp [acceptWrite, endCycle, acceptJournaled, appendEntry, openCycle]
    · intro n
      rw [(acceptWrite_keeps _ _ _ _ _).2.2.2.2.2.1]
      exact compares n
    · intro e
      rw [acceptWrite_flagged]
      exact gains e
  · intro full
    have none_ : ¬ (s.queue.entries.length < 16 ∧ s.intake.pendingCommit = false) := by
      rintro ⟨short, pending⟩
      obtain long | held := full
      · omega
      · simp [pending] at held
    have watch : (compareAll s.watchSettings seen (openCycle s)).watchSettings = s.watchSettings :=
      compareAll_settings _ _ (openCycle s)
    have timer : (compareAll s.watchSettings seen (openCycle s)).freshTimer =
        { elapsed := 0, limit := s.settings.waitLimit.toNat } := by
      simp [State.freshTimer, openCycle]
    rw [if_neg (mt space.1 none_), watch, timer]
    refine ⟨_, rfl, ?_, compares, gains, ?_⟩
    · simp [holdCycle, openCycle]
    · obtain ⟨counters, refusal, -⟩ := compareAll_events s.watchSettings seen (openCycle s)
      refine ⟨counters, refusal, ?_⟩
      simp [State.SameWork, holdCycle, openCycle]

/-! ### Waiting writes and holds (2.5, R33) -/

theorem exec_waitingWriteClaim (s : State) :
    exec .waitingWriteClaim s = .next (claimFirst s) := rfl

theorem claimFirst_of_waiting {s : State} {c : Cycle} (current : s.up.cycle = some c)
    (waits : c.phase = .waitingWrite) (space : s.queue.entries.length < 16)
    (pending : s.intake.pendingCommit = false) : claimFirst s = claimEntry c s := by
  have claims : s.writeMayClaim = true := (writeMayClaim_iff s).2 ⟨pending, space⟩
  simp [claimFirst, current, waits, claims]

/-- A claim goes by lookup, class and gate. -/
theorem claimEntry_eq {s : State} {c : Cycle} {cls : RegionClass} {tag : Word}
    (h1 : s.gate.opState ≠ .recovering) (h2 : s.gate.opState ≠ .formatting)
    (lookup : s.lookup c.addr = (cls, tag)) : claimEntry c s =
      if cls.refusesWrites then refuse c.addr .write .cls tag s
      else if s.gateRefuses cls then refuse c.addr .write .gate tag s
      else acceptWrite c.addr c.data c.lanes cls s := by
  simp [claimEntry, refusesState_false s h1 h2, lookup]

/-- Settles O26: a claim needs a waiting write, a free entry and no pending commit, and goes by lookup, class and
gate. -/
theorem waitingWriteClaims : Obligations.WaitingWriteClaims := by
  refine ⟨fun s h => ?_, fun s u h => ?_, ?_⟩
  · rw [exec_waitingWriteClaim, claimFirst_none s h]
  · rw [exec_waitingWriteClaim, Host.Outcome.next.injEq] at h
    rw [exec_waitingWriteClaim, ← h, claimFirst_settled]
  · intro s c cls tag current waits space pending h1 h2 lookup
    rw [exec_waitingWriteClaim, claimFirst_of_waiting current waits space pending,
      claimEntry_eq h1 h2 lookup]
    refine ⟨fun refuses => ⟨_, ?_, refuse_spec c.addr .write .cls tag s⟩,
      fun covers => ⟨_, ?_, refuse_spec c.addr .write .gate tag s⟩, fun gate => ?_⟩
    · rw [if_pos ((refusesWrites_iff cls).2 refuses)]
    · have writable : ¬ cls.refusesWrites = true := by
        obtain ⟨rfl, -⟩ | ⟨rfl, -⟩ := covers <;> simp [RegionClass.refusesWrites]
      rw [if_neg writable, if_pos ((gateRefuses_iff s cls).2 covers)]
    · obtain ⟨writable, through, kind⟩ := gateRefuses_false gate
      rw [if_neg (Bool.eq_false_iff.1 writable), if_neg (Bool.eq_false_iff.1 through)]
      refine ⟨_, rfl, acceptWrite_spec s _ _ _ _ kind, ?_, ?_, ?_⟩
      · cases cls <;> rfl
      · simp
      · simp

/-- A refusal behind a comparison, of a cycle that was current. -/
theorem refuse_compared_spec (s : State) (a : Addr) (d : Direction) (why : Reason) (tag : Word)
    (held : Four WatchSettings) (seen : WatchCapture) :
    s.Refuses (refuse a d why tag (compareAll held seen s)) a d why tag ∧
    s.Compares (refuse a d why tag (compareAll held seen s)) held seen ∧
    s.FlagsGain (refuse a d why tag (compareAll held seen s))
      (fun e => decide (e = why.event) || hitEvent held seen e) := by
  obtain ⟨refuses, watch, gains⟩ := refuse_spec a d why tag (compareAll held seen s)
  obtain ⟨compares, hits⟩ := compareAll_spec held seen s
  refine ⟨?_, fun n => ?_, fun e => ?_⟩
  · simpa [State.Refuses, State.SameWork] using refuses
  · rw [watch]
    exact compares n
  · rw [gains e, hits e, Bool.or_assoc, Bool.or_comm (hitEvent held seen e)]

/-- Settles O27: a hold that runs out is a refusal, of a held read behind its comparison. -/
theorem holdExpires : Obligations.HoldExpires := by
  intro s c current
  have expires : exec .waitLimitExpiry s = .next (expireHold c s) := by
    simp [exec, execWaitLimitExpiry, current]
  rw [expires]
  refine ⟨fun waits => ⟨_, ?_, refuse_spec c.addr .write .timeout c.tag s⟩, fun held seen hs => ?_⟩
  · rw [expireHold, waits]
  · refine ⟨_, ?_, refuse_compared_spec s c.addr .read .timeout c.tag c.watch seen⟩
    rw [expireHold, held, hs]

/-! ### Ends of reads (R27 to R29) -/

/-- The state in which the owner of a completed read goes on. -/
theorem exec_upstreamComplete {s : State} {a : Access} (access : s.port.access = some (.upstream, a))
    (read : a.write = none) (answer : Option Word) :
    exec (.accessComplete answer) s =
      .next (finishRead (s.readAnswer a answer) (s.setPort { s.port with access := none })) := by
  have kept : s.memAfter a answer = s.mem := by simp [State.memAfter, read]
  rw [exec_accessComplete access, completeAccess, kept]
  rfl

theorem finishRead_eq {s : State} {c : Cycle} (current : s.up.cycle = some c) {seen : WatchCapture}
    {data : Word} (hs : seen = s.observe c.addr .read .both (s.readWord c data) c.cls) :
    finishRead data s = if watchRefuses (watchOutcome c.watch seen) then
      watchTrigger (watchOutcome c.watch seen)
        (refuse c.addr .read .watch c.tag (compareAll c.watch seen s))
      else answerRead (s.readWord c data) (compareAll c.watch seen s) := by
  simp only [finishRead, current, ← hs]

/-- The upper byte of a forwarded word (R28). -/
theorem forward_upper (q : List Entry) (a : Addr) (m : Word) :
    (∀ older e newer, q = older ++ .write e :: newer → e.addr = a → e.lanes ≠ .lower →
      (∀ e', .write e' ∈ newer → e'.addr = a → e'.lanes = .lower) →
      hiByte (forward q a m) = hiByte e.data) ∧
    ((∀ e, .write e ∈ q → e.addr = a → e.lanes = .lower) → hiByte (forward q a m) = hiByte m) := by
  obtain ⟨newest, none_⟩ := forwardByte_spec Lanes.hasUpper hiByte a q (hiByte m)
  rw [forward, hiByte_joinBytes]
  refine ⟨fun older e newer queue addr carries later => ?_, fun h => ?_⟩
  · exact newest older e newer queue addr ((lanes_has_iff _).1.2 carries) fun e' he ha =>
      (lanes_has_iff _).2.1.2 (later e' he ha)
  · exact none_ fun e he ha => (lanes_has_iff _).2.1.2 (h e he ha)

/-- The lower byte of a forwarded word (R28). -/
theorem forward_lower (q : List Entry) (a : Addr) (m : Word) :
    (∀ older e newer, q = older ++ .write e :: newer → e.addr = a → e.lanes ≠ .upper →
      (∀ e', .write e' ∈ newer → e'.addr = a → e'.lanes = .upper) →
      loByte (forward q a m) = loByte e.data) ∧
    ((∀ e, .write e ∈ q → e.addr = a → e.lanes = .upper) → loByte (forward q a m) = loByte m) := by
  obtain ⟨newest, none_⟩ := forwardByte_spec Lanes.hasLower loByte a q (loByte m)
  rw [forward, loByte_joinBytes]
  refine ⟨fun older e newer queue addr carries later => ?_, fun h => ?_⟩
  · exact newest older e newer queue addr ((lanes_has_iff _).2.2.1.2 carries) fun e' he ha =>
      (lanes_has_iff _).2.2.2.2 (later e' he ha)
  · exact none_ fun e he ha => (lanes_has_iff _).2.2.2.2 (h e he ha)

theorem readWord_of_forwarded {s : State} {c : Cycle} (h : c.cls = .journaled ∨ c.cls = .direct)
    (data : Word) : s.readWord c data = forward s.queue.entries c.addr data := by
  obtain h | h := h <;> rw [State.readWord, h]

/-- The end of an answered read changes the cycle, the free port, the watch units and the flags. -/
theorem answerRead_compared (held : Four WatchSettings) (seen : WatchCapture) (w : Word) (s : State) :
    answerRead w (compareAll held seen s) = { s with
      up := (answerRead w (compareAll held seen s)).up
      port := (answerRead w (compareAll held seen s)).port
      watch := (answerRead w (compareAll held seen s)).watch
      events := (answerRead w (compareAll held seen s)).events } := by
  apply State.eq_of_fields
  simp

/-- Settles O28: a read that the units let pass ends with the newest queued bytes over those of memory. -/
theorem forwardingLaneByLane : Obligations.ForwardingLaneByLane := by
  intro s c a seen w current access read hw hs passes
  refine ⟨?_, fun forwards => ?_, fun plain => ?_⟩
  · have freed : (s.setPort { s.port with access := none }).up.cycle = some c := current
    have finish := finishRead_eq freed (data := s.readAnswer a none) (hw ▸ hs)
    rw [if_neg (Bool.eq_false_iff.1 passes)] at finish
    obtain ⟨compares, gains⟩ := compareAll_spec c.watch seen (s.setPort { s.port with access := none })
    have kept := compareAll_keeps c.watch seen (s.setPort { s.port with access := none })
    obtain ⟨-, up, port, -⟩ := kept
    obtain ⟨counters, -⟩ := compareAll_events c.watch seen (s.setPort { s.port with access := none })
    have uberr := congrArg Upstream.uberr up
    have idle := congrArg Port.access port
    have streak := congrArg Port.streak port
    refine ⟨_, (exec_upstreamComplete access read none).trans (congrArg _ finish), congrArg some hw.symm,
      rfl, rfl, rfl, uberr, idle, streak, compares, gains, counters, ?_⟩
    exact answerRead_compared c.watch seen _ (s.setPort { s.port with access := none })
  · rw [readWord_of_forwarded forwards] at hw
    obtain ⟨newest, none_⟩ := forward_upper s.queue.entries c.addr (s.mem.word (a.addr % s.top))
    obtain ⟨newest', none_'⟩ := forward_lower s.queue.entries c.addr (s.mem.word (a.addr % s.top))
    rw [← hw] at newest none_ newest' none_'
    refine ⟨newest, newest', fun h => (none_ h).trans ?_, fun h => (none_' h).trans ?_⟩
    · exact hiByte_joinBytes _ _
    · exact loByte_joinBytes _ _
  · obtain h | h := plain <;> rw [hw, State.readWord, h]

/-- Settles O29: a read that the units refuse is refused behind its comparison. -/
theorem watchRefusesRead : Obligations.WatchRefusesRead := by
  intro s c a seen answer current access read hs outcome
  have freed : (s.setPort { s.port with access := none }).up.cycle = some c := current
  have finish := finishRead_eq freed (data := s.readAnswer a answer) hs
  rw [if_pos ((watchRefuses_iff _).2 outcome)] at finish
  have spec := refuse_compared_spec (s.setPort { s.port with access := none }) c.addr .read .watch c.tag
    c.watch seen
  exact ⟨_, (exec_upstreamComplete access read answer).trans (congrArg _ finish), spec⟩

/-! ### Grants (R39, R40) -/

theorem rollingBack_iff (s : State) : s.rollingBack = true ↔ ∃ r, s.engine.work = .rollingBack r := by
  cases h : s.engine.work <;> simp [State.rollingBack, h]

theorem exec_arbiterGrant {s : State} (free : s.port.access = none) :
    exec .arbiterGrant s = .next (arbitrate (holdRead (startWork s))) := by
  simp [exec, execArbiterGrant, free]

theorem holdRead_of_held {s : State} {c : Cycle} (current : s.up.cycle = some c)
    (h : c.phase = .reading ∧ c.cls = .journaled ∧ s.rollingBack = true) :
    holdRead s = s.setUp { s.up with
      cycle := some { c with phase := .readHeld }, timer := some s.freshTimer } := by
  simp [holdRead, current, h]

theorem holdRead_of_not_held {s : State}
    (h : ∀ c, s.up.cycle = some c → ¬ (c.phase = .reading ∧ c.cls = .journaled ∧ s.rollingBack = true)) :
    holdRead s = s := by
  unfold holdRead
  split
  · rfl
  · next c current => exact if_neg (h c current)

/-- With no read to grant the engine is granted, if it claims (R39). -/
theorem arbitrate_without_read {s : State} (h : s.readClaim = none) :
    (∀ e, s.engineAccess = some e →
      arbitrate s = s.setPort { access := some (.engine, e), streak := 0 }) ∧
    (s.engineAccess = none → arbitrate s = s) := by
  constructor <;> intros <;> simp_all [arbitrate, grant]

/-- With a read to grant the streak decides (R40). -/
theorem arbitrate_with_read {s : State} {r : Access} (h : s.readClaim = some r) :
    (s.engineAccess = none ∨ s.port.streak < s.settings.streakLimit.toNat →
      arbitrate s = s.setPort { access := some (.upstream, r),
                                streak := if s.engineAccess = none then 0 else s.port.streak + 1 }) ∧
    (∀ e, s.engineAccess = some e → s.settings.streakLimit.toNat ≤ s.port.streak →
      arbitrate s = s.setPort { access := some (.engine, e), streak := 0 }) := by
  constructor
  · cases he : s.engineAccess with
    | none => exact fun _ => by simp [arbitrate, h, he, grant]
    | some e =>
      intro below
      have below : s.port.streak < s.settings.streakLimit.toNat := below.resolve_left (by simp)
      simp [arbitrate, h, he, below, grant]
  · intro e he reached
    simp [arbitrate, h, he, Nat.not_lt.2 reached, grant]

theorem readClaim_of_reading {s : State} {c : Cycle} (current : s.up.cycle = some c)
    (h : c.phase = .reading) : s.readClaim = some { addr := c.addr.toNat, write := none } := by
  simp [State.readClaim, current, h]

theorem readClaim_none {s : State} (h : ∀ c, s.up.cycle = some c → c.phase ≠ .reading) :
    s.readClaim = none := by
  unfold State.readClaim
  split
  · next c current => exact if_neg (h c current)
  · rfl

/-- A grant behind the engine's beginnings is a grant without them (R65, log 41). -/
theorem startWork_settled (s : State) : startWork (startWork s) = startWork s ∧
    beginOrdered (startWork s) = startWork s ∧ takeHead (startWork s) = startWork s := by
  have begins := beginOrdered_startWork s
  have takes : takeHead (startWork s) = startWork s := takeHead_settled (beginOrdered s)
  refine ⟨?_, begins, takes⟩
  rw [startWork, begins, takes]

/-- Settles O30: the free port goes to the read or the engine by claim and streak. -/
theorem arbiterGrants : Obligations.ArbiterGrants := by
  intro s
  refine ⟨rollingBack_iff s, fun busy => ?_, fun u v free begins takes => ?_, fun free begins takes => ?_⟩
  · simp only [exec, execArbiterGrant]
    split
    · rfl
    · next free => exact absurd free busy
  · have hu : beginOrdered s = u := Host.Outcome.next.inj begins
    have hv : takeHead u = v := Host.Outcome.next.inj takes
    have started : startWork s = v := by rw [startWork, hu, hv]
    obtain ⟨again, begins', takes'⟩ := startWork_settled s
    rw [started] at again begins' takes'
    have port : v.port = s.port := by
      rw [← started]
      simp [startWork]
    refine ⟨?_, port, congrArg _ begins', congrArg _ takes'⟩
    rw [exec_arbiterGrant free, exec_arbiterGrant (port ▸ free), again, started]
  · have hu : beginOrdered s = s := Host.Outcome.next.inj begins
    have hv : takeHead s = s := Host.Outcome.next.inj takes
    have started : startWork s = s := by rw [startWork, hu, hv]
    rw [exec_arbiterGrant free, started]
    refine ⟨fun c current reading journaled rolling => ?_, fun c current reading granted => ?_,
      fun no_read => ?_⟩
    · rw [holdRead_of_held current ⟨reading, journaled, rolling⟩]
      obtain ⟨engine, none_⟩ := arbitrate_without_read (s := s.setUp { s.up with
        cycle := some { c with phase := .readHeld }, timer := some s.freshTimer })
        (readClaim_none (by rintro _ ⟨⟩; simp))
      cases he : s.engineAccess with
      | none =>
        rw [none_ he]
        exact ⟨_, rfl, rfl, by simp, fun _ => rfl, rfl⟩
      | some e =>
        rw [engine e he]
        exact ⟨_, rfl, rfl, by simp, by simp, rfl⟩
    · rw [holdRead_of_not_held fun c' current' held => by
        cases current.symm.trans current'
        obtain other | idle := granted
        · exact other held.2.1
        · simp [idle] at held]
      obtain ⟨read, engine⟩ := arbitrate_with_read (readClaim_of_reading current reading)
      exact ⟨fun h => congrArg _ (read h), fun e he h => congrArg _ (engine e he h)⟩
    · rw [holdRead_of_not_held fun c current held => no_read c current held.1]
      obtain ⟨engine, none_⟩ := arbitrate_without_read (readClaim_none no_read)
      exact ⟨fun e he => congrArg _ (engine e he), fun h => congrArg _ (none_ h)⟩

end Sys2Proof.Machine
end

section
/-! PROOFS. The Store Engine's drains: taking the head, runs of writes, APPLY, records, journal faults and seals. -/

namespace Sys2Proof.Machine

/-! ### Taking the head (R65) -/

theorem headBegun_iff (s : State) : s.headBegun = true ↔ ∃ d, s.engine.work = .draining d := by
  cases h : s.engine.work <;> simp [State.headBegun, h]

theorem takeHead_cons {s : State} {e : Entry} {q : List Entry} (h : s.queue.entries = e :: q) :
    takeHead s = if s.headReady then setDrain (s.firstStage e) s else s := by
  simp [takeHead, h]

/-- The first stage of a write is COPY exactly where its mark asks for the copy. -/
theorem firstStage_write (s : State) (w : WriteEntry) : s.firstStage (.write w) =
    if w.mark.any (fun m => m.copyFirst) then .copy [] else .apply := by
  cases h : w.mark <;> simp [State.firstStage, h]

/-- Settles O31: the head is taken exactly where it is ready (the model's function has the plain name). -/
theorem takeHeadObligation : Obligations.TakeHead := by
  refine ⟨headBegun_iff, fun s empty => by simp [exec, execTakeHead, takeHead, empty],
    fun s e q queue => ⟨fun idle order held => ?_, fun stays => ?_⟩⟩
  · have ready := (headReady_iff queue).2 ⟨idle, order, held⟩
    have taken : takeHead s = setDrain (s.firstStage e) s := (takeHead_cons queue).trans (if_pos ready)
    refine congrArg _ (taken.trans ?_)
    cases e with
    | write w => rw [firstStage_write]; rfl
    | sealToken g sw => rfl
    | tableToken base => rfl
  · have not_ready : ¬ s.headReady = true := by
      rw [headReady_iff queue]
      rintro ⟨idle, order, held⟩
      obtain busy | ⟨some_order, condition⟩ | ⟨g, sw, token, abandoned⟩ := stays
      · exact busy idle
      · obtain none_ | fails := order
        · exact some_order none_
        · simp [condition] at fails
      · exact held g sw token abandoned
    exact congrArg _ ((takeHead_cons queue).trans (if_neg not_ready))

/-! ### Runs of writes (R7, R66) -/

theorem burst_writing {b : Burst} {n : Nat} (h : b.phase = .writing n) (v : Bool) (x : Word) :
    b.access = { addr := b.base + n, write := some (b.words.getD n 0, .both) } ∧
    (n + 1 < b.words.length → b.advance v x = .more { b with phase := .writing (n + 1) }) ∧
    (b.words.length ≤ n + 1 → v = true → b.advance v x = .more { b with phase := .checking 0 false }) ∧
    (b.words.length ≤ n + 1 → v = false → b.advance v x = .ended false) := by
  refine ⟨by simp only [Burst.access, h, wordAt], fun more => ?_, fun last verify => ?_,
    fun last verify => ?_⟩
  · simp [Burst.advance, h, more]
  · simp [Burst.advance, h, Nat.not_lt.2 last, verify]
  · simp [Burst.advance, h, Nat.not_lt.2 last, verify]

theorem burst_checking {b : Burst} {n : Nat} {d : Bool} (h : b.phase = .checking n d) (v : Bool)
    (x : Word) : b.access = { addr := b.base + n, write := none } ∧
    (n + 1 < b.words.length → b.advance v x = .more { b with
      phase := .checking (n + 1) (d || decide (x ≠ b.words.getD n 0)) }) ∧
    (b.words.length ≤ n + 1 → b.advance v x = .ended (d || decide (x ≠ b.words.getD n 0))) := by
  refine ⟨by simp only [Burst.access, h], fun more => ?_, fun last => ?_⟩
  · simp [Burst.advance, h, more, wordAt]
  · simp [Burst.advance, h, Nat.not_lt.2 last, wordAt]

/-- The works that are runs of writes, each with its use of VERIFY. -/
def State.RunsAs (s : State) (w : Burst → Work) (v : Bool) : Prop :=
  ((w = fun b => .draining (.record b)) ∧ v = s.settings.verify) ∨
  ((w = fun b => .draining (.anchor b)) ∧ v = s.settings.verify) ∨
  (∃ r : Rollback, (w = fun b => .rollingBack { r with phase := .retract b }) ∧
    v = s.settings.verify) ∨
  (∃ (r : Rollback) (j : Nat) (c : Word),
    (w = fun b => .rollingBack { r with phase := .restore j c b }) ∧ v = s.settings.verify) ∨
  (∃ (r : Rollback) (o : Option Nat),
    (w = fun b => .rollingBack { r with phase := .void o b }) ∧ v = s.settings.verify) ∨
  (∃ (r : Machine.Recovery) (j : Nat),
    (w = fun b => .recovering { r with phase := .restore j b }) ∧ v = false) ∨
  (∃ r : Machine.Recovery, (w = fun b => .recovering { r with phase := .void b }) ∧ v = false) ∨
  (∃ f : Format, (w = fun b => .formatting { f with phase := .anchor b }) ∧
    v = s.settings.verify) ∨
  (∃ f : Format, (w = fun b => .formatting { f with phase := .retract b }) ∧ v = false)

/-- A run makes its own accesses and, while it goes on, changes nothing but its progress. -/
theorem advanceEngine_of_runs {s : State} {w : Burst → Work} {v : Bool} {b : Burst} (h : s.RunsAs w v)
    (work : s.engine.work = w b) : s.engineAccess = some b.access ∧
    ∀ data b', b.advance v data = .more b' → advanceEngine data s = setWork (w b') s := by
  obtain ⟨rfl, rfl⟩ | ⟨rfl, rfl⟩ | ⟨r, rfl, rfl⟩ | ⟨r, j, c, rfl, rfl⟩ | ⟨r, o, rfl, rfl⟩ |
    ⟨r, j, rfl, rfl⟩ | ⟨r, rfl, rfl⟩ | ⟨f, rfl, rfl⟩ | ⟨f, rfl, rfl⟩ := h
  all_goals
    refine ⟨by simp only [State.engineAccess, work], fun data b' more => ?_⟩
    simp only [advanceEngine, work, advanceDrain, advanceRollback, advanceRecovery, advanceFormat, more]
    rfl

/-- Settles O32: a run's next access and its next step. -/
theorem runsOfWrites : Obligations.RunsOfWrites := by
  refine ⟨fun b v x => ⟨fun n h => burst_writing h v x, fun n d h => burst_checking h v x⟩, ?_⟩
  intro s a answer w v b b' runs work
  refine ⟨rfl, fun _ => rfl, (advanceEngine_of_runs (s := s) (w := w) (v := v) runs work).1, fun access more => ?_⟩
  have next := (advanceEngine_of_runs (s := (s.setMem (s.memAfter a answer)).setPort
    { s.port with access := none }) (w := w) (v := v) runs work).2 _ _ more
  rw [accessComplete_engine s a answer access, next]
  rfl

/-! ### APPLY and the record (4.3) -/

theorem finishDrain_cons {s : State} {e : Entry} {q : List Entry} (h : s.queue.entries = e :: q) :
    finishDrain s = { s with
      queue := { s.queue with entries := q }, engine := { s.engine with work := .idle } } := by
  simp [finishDrain, setWork, h, State.setQueue, State.setEngine]

theorem advanceEngine_draining {s : State} {d : Drain} (work : s.engine.work = .draining d)
    (data : Word) : advanceEngine data s = advanceDrain d data s := by
  simp only [advanceEngine, work]

/-- Settles O33: APPLY writes its entry's lanes and ends the drain. -/
theorem applyCompletes : Obligations.ApplyCompletes := by
  intro s w q work queue
  refine ⟨by simp only [State.engineAccess, work, queue], fun access => ?_⟩
  have written : s.memAfter { addr := w.addr.toNat, write := some (w.data, w.lanes) } none =
      s.mem.writeWord (w.addr.toNat % s.top) w.data w.lanes := rfl
  rw [accessComplete_engine s _ none access, written]
  exact congrArg _ ((advanceEngine_draining (s := (s.setMem (s.mem.writeWord
      (w.addr.toNat % s.top) w.data w.lanes)).setPort { s.port with access := none }) work _).trans
    (finishDrain_cons queue))

theorem headLine_of_write {s : State} {w : WriteEntry} {q : List Entry}
    (h : s.queue.entries = .write w :: q) : s.headLine = lineOf w.addr := by
  simp [State.headLine, h]

theorem headNote_of_write {s : State} {w : WriteEntry} {q : List Entry}
    (h : s.queue.entries = .write w :: q) : s.headNote = w.mark.any fun m => m.note := by
  cases mark : w.mark <;> simp [State.headNote, h, mark]

theorem countRecord_eq {s : State} {w : WriteEntry} {q : List Entry}
    (h : s.queue.entries = .write w :: q) (check : Word) : countRecord check s = { s with
      engine := { s.engine with count := s.engine.count + 1, chain := check
                                work := .draining .apply }
      events := if w.mark.any (fun m => m.note) then { s.events with counters := {
          s.events.counters with rejournaled := satInc s.events.counters.rejournaled } }
        else s.events } := by
  have unfolded : countRecord check s = if s.headNote then
      count .rejournaled (s.setEngine { s.engine with
        count := s.engine.count + 1, chain := check, work := .draining .apply })
    else s.setEngine { s.engine with
        count := s.engine.count + 1, chain := check, work := .draining .apply } := rfl
  rw [unfolded, headNote_of_write h]
  split <;> rfl

/-- COPY goes on, or the RECORD stage begins. -/
theorem advanceDrain_copy (got : List Word) (data : Word) (s : State) :
    (got.length < 7 → advanceDrain (.copy got) data s = setDrain (.copy (got ++ [data])) s) ∧
    (got.length = 7 → advanceDrain (.copy got) data s = beginRecord (got ++ [data]) s) := by
  constructor
  · intro short
    have : (got ++ [data]).length < 8 := by simp; omega
    simp only [advanceDrain, this, if_true]
  · intro full
    have : ¬ (got ++ [data]).length < 8 := by simp; omega
    simp only [advanceDrain, this, if_false]

/-- Settles O34: COPY reads the line, RECORD writes slot k, and a record is counted. -/
theorem recordStages : Obligations.RecordStages := by
  intro s w q a x queue access
  refine ⟨fun got work read hx => ⟨?_, fun short => ?_, fun full room => ?_⟩, fun b answer work ended => ?_⟩
  · simp only [State.engineAccess, work, headLine_of_write queue]
  · have next := advanceEngine_draining (s := s.setPort { s.port with access := none }) work x
    rw [accessComplete_engine_read s a access read, ← hx, next, (advanceDrain_copy got x _).1 short]
    rfl
  · have next := advanceEngine_draining (s := s.setPort { s.port with access := none }) work x
    have line : (s.setPort { s.port with access := none }).headLine = lineOf w.addr :=
      headLine_of_write queue
    rw [accessComplete_engine_read s a access read, ← hx, next, (advanceDrain_copy got x _).2 full,
      beginRecord, line, if_neg (by exact room)]
    rfl
  · have next := advanceEngine_draining (s := (s.setMem (s.memAfter a answer)).setPort
      { s.port with access := none }) work (s.readAnswer a answer)
    have ends : b.advance ((s.setMem (s.memAfter a answer)).setPort
      { s.port with access := none }).settings.verify (s.readAnswer a answer) = .ended false := ended
    rw [accessComplete_engine s a answer access, next]
    simp only [advanceDrain, ends]
    exact congrArg _ (countRecord_eq (s := (s.setMem (s.memAfter a answer)).setPort
      { s.port with access := none }) queue _)

end Sys2Proof.Machine
end

section
/-! PROOFS. The Store Engine's drains: journal faults and completed seals. -/

namespace Sys2Proof.Machine

/-! ### Behind the discard order of a journal fault (R60, R80, R111) -/

/-- What a journal fault's trigger finds: its discard order has run, and the rollback of D has begun. -/
structure State.Discarded (s : State) : Prop where
  entries : s.queue.entries.all (fun e => !e.isJournaled && !e.isSeal) = true
  intake : s.intake = { s.intake.cleared with pendingCommit := false, group := s.openGroup }
  abandoned : s.engine.abandoned = some s.openGroup
  rolling : s.rollingBack = true

theorem State.Discarded.congr {s t : State} (h : s.Discarded) (queue : t.queue = s.queue)
    (intake : t.intake = s.intake) (engine : t.engine = s.engine) : t.Discarded where
  entries := by rw [queue]; exact h.entries
  intake := by simp only [State.openGroup, intake, engine]; exact h.intake
  abandoned := by simp only [State.openGroup, engine]; exact h.abandoned
  rolling := by simp only [State.rollingBack, engine]; exact h.rolling

theorem discardTo_self (p : Posted) : p.discardTo p.entries = p := by
  simp [Posted.discardTo, satAdd_zero]

/-- Behind the discard order a STOP order has nothing left to do. -/
theorem stopOrder_of_discarded {s : State} (h : s.Discarded) : stopOrder s = s := by
  have begun : s.headBegun = false := by
    have rolling := h.rolling
    cases work : s.engine.work <;> simp_all [State.rollingBack, State.headBegun]
  have queue : s.queue.discardTo s.stopKept = s.queue := by
    have kept : s.stopKept = s.queue.entries := by
      simp only [State.stopKept, begun, stopKeep_clean _ h.entries]
    rw [kept, discardTo_self]
  have intake : { s.intake.cleared with pendingCommit := false } = s.intake := by
    rw [h.intake]; rfl
  have group : s.intake.group = s.openGroup := congrArg Intake.group h.intake
  have abandoned : (if s.stopAbandons then some s.intake.group else s.engine.abandoned) =
      s.engine.abandoned := by
    rw [group, h.abandoned, ite_self]
  unfold stopOrder
  dsimp only
  rw [queue, abandoned]
  exact congrArg (fun i => (s.setIntake i)) intake

theorem actStopped_of_discarded {s : State} (h : s.Discarded) (cause : Cause) :
    actStopped cause .rollback s = s := by
  simp [actStopped, stopOrder_of_discarded h, placeOrder, h.rolling]

theorem refuseWaiting_restore (s : State) :
    (refuseWaiting s).events.restore = s.events.restore := by
  unfold refuseWaiting
  split
  · rfl
  · split
    · obtain ⟨-, -, -, -, -, -, -, restore, -⟩ := (refuse_spec _ _ .gate _ s).1
      exact restore
    · rfl

theorem closeGate_restore (s : State) : (closeGate s).events.restore = s.events.restore := by
  rw [closeGate, refuseWaiting_restore]
  exact (Events.raise_rest _ _ _).2.2

/-- The trigger of a journal fault freezes with its cause and level ROLLBACK and leaves the rest. -/
theorem trigger_of_discarded {s : State} (h : s.Discarded) (cause : Cause)
    (mode : s.gate.opState = .running ∨ s.gate.opState = .frozen) :
    let t := trigger cause .rollback s
    (t.gate.opState = .frozen ∧ t.gate.causes = s.gate.causes.add cause ∧ t.gate.level = .rollback ∧
      t.gate.order = s.gate.order) ∧ t.queue = s.queue ∧ t.intake = s.intake ∧
    t.engine = s.engine ∧ t.region = s.region ∧ t.events.restore = s.events.restore := by
  obtain running | frozen := mode
  · have closed : (closeGate (addCause cause s)).Discarded := h.congr (by simp) (by simp) (by simp)
    have gate := closeGate_gate (addCause cause s)
    rw [trigger_of_running running, actOpen, actStopped_of_discarded closed]
    rw [addCause_gate] at gate
    exact ⟨by simp only [setLevel_gate, gate, and_self], by simp, by simp, by simp, by simp,
      closeGate_restore _⟩
  · have added : (addCause cause s).Discarded := h.congr rfl rfl rfl
    by_cases stronger : s.gate.level.strength < Action.rollback.strength
    · rw [trigger_of_stronger frozen cause stronger, actOpen, actStopped_of_discarded added]
      exact ⟨⟨frozen, rfl, rfl, rfl⟩, rfl, rfl, rfl, rfl, rfl⟩
    · have level : s.gate.level = .rollback := by
        cases level : s.gate.level <;> simp [level, Action.strength] at stronger ⊢
      rw [trigger_of_not_stronger frozen cause stronger]
      exact ⟨⟨frozen, rfl, level, rfl⟩, rfl, rfl, rfl, rfl, rfl⟩

/-! ### Journal faults (4.6) -/

theorem filter_journaled_of_clean (q : List Entry) :
    (q.filter fun e => !e.isJournaled && !e.isSeal).filter Entry.isJournaled = [] := by
  simp only [List.filter_filter, List.filter_eq_nil_iff]
  intro e _
  cases e.isJournaled <;> simp

theorem sealCount_of_clean (q : List Entry) :
    sealCount (q.filter fun e => !e.isJournaled && !e.isSeal) = 0 :=
  sealCount_eq_zero fun e he => by
    simpa using (Bool.and_eq_true_iff.1 (List.mem_filter.1 he).2).2

/-- The state that a journal fault's trigger finds, block by block. -/
theorem faulted_blocks (s : State) (cause : Cause) (retract : Bool) :
    (s.faulted cause retract).queue = {
      entries := s.queue.entries.filter fun e => !e.isJournaled && !e.isSeal
      discardedWrites :=
        satAdd s.queue.discardedWrites (s.queue.entries.filter fun e => e.isJournaled).length
      discardedTokens :=
        satAdd s.queue.discardedTokens (s.queue.entries.filter fun e => e.isSeal).length } ∧
    (s.faulted cause retract).intake =
      { s.intake.cleared with pendingCommit := false, group := s.openGroup } ∧
    (s.faulted cause retract).engine = { s.engine with
      abandoned := some s.openGroup, work := .rollingBack (s.faultRollback cause retract) } ∧
    (s.faulted cause retract).gate = { s.gate with order := none } ∧
    (s.faulted cause retract).region =
      (if s.queue.entries.any Entry.carriesSwitch then (undoSwitch s).region else s.region) ∧
    (s.faulted cause retract).events = s.events := by
  have queue : s.queue.discardTo (s.queue.entries.filter fun e => !e.isJournaled && !e.isSeal) = {
      entries := s.queue.entries.filter fun e => !e.isJournaled && !e.isSeal
      discardedWrites :=
        satAdd s.queue.discardedWrites (s.queue.entries.filter fun e => e.isJournaled).length
      discardedTokens :=
        satAdd s.queue.discardedTokens (s.queue.entries.filter fun e => e.isSeal).length } := by
    simp only [Posted.discardTo, filter_journaled_of_clean, sealCount_of_clean, List.length_nil,
      Nat.sub_zero]
    rfl
  rw [← queue]
  unfold State.faulted faultOrder
  dsimp only
  split <;> exact ⟨rfl, rfl, rfl, rfl, rfl, rfl⟩

theorem faulted_discarded (s : State) (cause : Cause) (retract : Bool) :
    (s.faulted cause retract).Discarded := by
  obtain ⟨queue, intake, engine, -⟩ := faulted_blocks s cause retract
  have opened : (s.faulted cause retract).openGroup = s.openGroup := by rw [State.openGroup, engine]; rfl
  refine ⟨?_, ?_, ?_, ?_⟩
  · rw [queue]
    exact List.all_eq_true.2 fun e he => (List.mem_filter.1 he).2
  · rw [opened, intake]; rfl
  · rw [opened, engine]
  · simp [State.rollingBack, engine]

/-- A journal fault is its trigger, and the end EMPTY where there is nothing to retract or restore. -/
theorem journalFault_eq (cause : Cause) (retract : Bool) (s : State) :
    journalFault cause retract s =
      if retract = false ∧ s.engine.count = 0 then
        endRollback (s.faultRollback cause retract) .empty none none
          (trigger cause .rollback (s.faulted cause retract))
      else trigger cause .rollback (s.faulted cause retract) := by
  have same : (faultOrder s).faultRollback cause retract = s.faultRollback cause retract := by
    simp [State.faultRollback, State.newRollback, State.openGroup, State.anchorAddr, State.top]
  rw [← same]
  have count : (faultOrder s).engine.count = s.engine.count := by simp
  rw [← count]
  rfl

/-- The trigger of a journal fault, on the state that its discard order has left (R60, R80, R82). -/
theorem trigger_faulted (cause : Cause) (retract : Bool) {s : State}
    (mode : s.gate.opState = .running ∨ s.gate.opState = .frozen) :
    let t := trigger cause .rollback (s.faulted cause retract)
    (t.gate.opState = .frozen ∧ t.gate.causes = s.gate.causes.add cause ∧ t.gate.level = .rollback ∧
      t.gate.order = none) ∧ t.queue = (s.faulted cause retract).queue ∧
    t.intake = (s.faulted cause retract).intake ∧ t.engine = (s.faulted cause retract).engine ∧
    t.region = (s.faulted cause retract).region ∧ t.events.restore = s.events.restore ∧
    t.time = s.time := by
  obtain ⟨-, -, -, gate, -, events⟩ := faulted_blocks s cause retract
  obtain ⟨⟨frozen, causes, level, order⟩, queue, intake, engine, region, restore⟩ :=
    trigger_of_discarded (faulted_discarded s cause retract) cause (by rw [faulted_mode]; exact mode)
  rw [gate] at causes order
  rw [events] at restore
  exact ⟨⟨frozen, causes, level, order⟩, queue, intake, engine, region, restore,
    by simp [State.faulted]⟩

/-- What a journal fault leaves, whether or not its rollback has ended EMPTY. -/
theorem journalFault_blocks (cause : Cause) (retract : Bool) {s : State}
    (mode : s.gate.opState = .running ∨ s.gate.opState = .frozen) :
    let t := journalFault cause retract s
    t.queue.entries = s.queue.entries.filter (fun e => !e.isJournaled && !e.isSeal) ∧
    t.intake = { s.intake.cleared with pendingCommit := false, group := s.openGroup } ∧
    (t.gate.opState = .frozen ∧ t.gate.causes = s.gate.causes.add cause ∧ t.gate.level = .rollback ∧
      t.gate.order = none) ∧
    (t.engine.closed = s.engine.closed ∧ t.engine.count = s.engine.count ∧
      t.engine.chain = s.engine.chain ∧ t.engine.durable = s.engine.durable) ∧
    t.region = (if s.queue.entries.any Entry.carriesSwitch then (undoSwitch s).region else s.region) := by
  obtain ⟨fqueue, fintake, fengine, -, fregion, -⟩ := faulted_blocks s cause retract
  obtain ⟨gate, queue, intake, engine, region, -⟩ := trigger_faulted cause retract mode
  intro t
  have eq : t = if _ then _ else _ := journalFault_eq cause retract s
  rw [eq]
  split
  · obtain ⟨rgate, rintake, rregion, rqueue, -, -, rengine, -⟩ :=
      endRollback_fields (s.faultRollback cause retract) .empty none none
        (trigger cause .rollback (s.faulted cause retract))
    rw [rgate, rintake, rregion, rqueue, rengine, queue, intake, engine, region, fqueue, fengine]
    exact ⟨rfl, fintake, gate, ⟨rfl, rfl, rfl, rfl⟩, fregion⟩
  · rw [queue, intake, engine, region, fqueue, fengine]
    exact ⟨rfl, fintake, gate, ⟨rfl, rfl, rfl, rfl⟩, fregion⟩

/-- A journal fault with something to retract or to restore leaves its rollback begun. -/
theorem journalFault_begun (cause : Cause) (retract : Bool) {s : State}
    (mode : s.gate.opState = .running ∨ s.gate.opState = .frozen)
    (work : retract = true ∨ s.engine.count ≠ 0) :
    let t := journalFault cause retract s
    t.queue = (s.faulted cause retract).queue ∧ t.engine.abandoned = some s.openGroup ∧
    t.engine.work = .rollingBack (s.faultRollback cause retract) ∧
    t.events.restore = s.events.restore := by
  obtain ⟨-, -, fengine, -⟩ := faulted_blocks s cause retract
  obtain ⟨-, queue, -, engine, -, restore, -⟩ := trigger_faulted cause retract mode
  have other : ¬ (retract = false ∧ s.engine.count = 0) := by
    rintro ⟨rfl, none_left⟩
    exact work.elim Bool.noConfusion fun h => h none_left
  intro t
  have eq : t = _ := (journalFault_eq cause retract s).trans (if_neg other)
  rw [eq, queue, engine, fengine]
  exact ⟨rfl, rfl, rfl, restore⟩

/-- A journal fault with nothing to retract and no record ends its rollback EMPTY at once (R128). -/
theorem journalFault_ended (cause : Cause) {s : State}
    (mode : s.gate.opState = .running ∨ s.gate.opState = .frozen) (none_left : s.engine.count = 0) :
    let t := journalFault cause false s
    t.engine.abandoned = none ∧ t.engine.work = .idle ∧ t.queue.discardedWrites = 0 ∧
    t.queue.discardedTokens = 0 ∧ t.events.restore = { resetReport with
      origin := cause.origin, outcome := .empty, examined := some s.openGroup
      closed := s.engine.closed, found := s.engine.count
      discardedWrites := (s.faulted cause false).queue.discardedWrites
      discardedTokens := (s.faulted cause false).queue.discardedTokens
      tick := s.time.tick } := by
  obtain ⟨-, -, fengine, -⟩ := faulted_blocks s cause false
  obtain ⟨-, queue, -, engine, -, -, time⟩ := trigger_faulted cause false mode
  obtain ⟨-, -, -, rqueue, -, -, rengine, revents, -⟩ := endRollback_report
    (s.faultRollback cause false) .empty none none (trigger cause .rollback (s.faulted cause false)) _
    ((journalFault_eq cause false s).trans (if_pos ⟨rfl, none_left⟩))
  intro t
  rw [show t.engine = _ from rengine, show t.queue = _ from rqueue, show t.events = _ from revents,
    queue, engine, fengine, time]
  exact ⟨rfl, rfl, rfl, rfl, rfl⟩

/-- Which completed access is a journal fault, and with what cause. -/
theorem advanceDrain_fault {s : State} {d : Drain} {x : Word} {cause : Cause} {o : Origin} {retract : Bool}
    (work : s.engine.work = .draining d)
    (fault : (∃ got, d = .copy got ∧ got.length = 7 ∧ s.engine.count = s.engine.durable.slotCount ∧
        cause = .jfull ∧ o = .jfull ∧ retract = false) ∨
      (∃ b, d = .record b ∧ b.advance s.settings.verify x = .ended true ∧ cause = .verify ∧
        o = .verify ∧ retract = false) ∨
      (∃ b, d = .anchor b ∧ b.advance s.settings.verify x = .ended true ∧ cause = .verify ∧
        o = .verify ∧ retract = true)) :
    advanceEngine x s = journalFault cause retract s ∧ cause.origin = o := by
  rw [advanceEngine_draining work]
  obtain ⟨got, rfl, seven, full, rfl, rfl, rfl⟩ | ⟨b, rfl, ended, rfl, rfl, rfl⟩ |
    ⟨b, rfl, ended, rfl, rfl, rfl⟩ := fault
  · rw [(advanceDrain_copy got x s).2 seven, beginRecord, if_pos full]
    exact ⟨rfl, rfl⟩
  · exact ⟨by simp only [advanceDrain, ended], rfl⟩
  · exact ⟨by simp only [advanceDrain, ended], rfl⟩

/-- Settles O35: what a journal fault leaves behind. -/
theorem journalFaults : Obligations.JournalFaults := by
  refine ⟨fun x g sw p => ⟨rfl, rfl, rfl, rfl, rfl, rfl, rfl, rfl, rfl⟩, ?_⟩
  intro s a answer cause o retract writes tokens access mode fault hwrites htokens
  let c := (s.setMem (s.memAfter a answer)).setPort { s.port with access := none }
  have taken : advanceEngine (s.readAnswer a answer) c = journalFault cause retract c ∧
      cause.origin = o := by
    obtain ⟨got, work, rest⟩ | ⟨b, work, rest⟩ | ⟨b, work, rest⟩ := fault
    · exact advanceDrain_fault work (.inl ⟨got, rfl, rest⟩)
    · exact advanceDrain_fault work (.inr (.inl ⟨b, rfl, rest⟩))
    · exact advanceDrain_fault work (.inr (.inr ⟨b, rfl, rest⟩))
  obtain ⟨advanced, rfl⟩ := taken
  obtain ⟨fqueue, -⟩ := faulted_blocks c cause retract
  obtain ⟨queue, intake, ⟨frozen, causes, level, order⟩, ⟨closed, count, chain, durable⟩, region⟩ :=
    journalFault_blocks cause retract (s := c) mode
  have begun := journalFault_begun cause retract (s := c) mode
  have switched : (∃ e ∈ s.queue.entries, e.carriesSwitch = true) →
      (journalFault cause retract c).region = (undoSwitch c).region := fun some_switch =>
    region.trans (if_pos (List.any_eq_true.2 some_switch))
  refine ⟨journalFault cause retract c, (accessComplete_engine s a answer access).trans
      (congrArg _ advanced), by simp [c], by simp [c], queue, intake, frozen, causes, level, order,
    closed, count, chain, durable, fun no_switch => ?_, fun x some_switch state active => ?_,
    fun p some_switch state => ?_, fun some_left => ?_, ?_, ?_, ?_⟩
  · have none_ : ¬ s.queue.entries.any Entry.carriesSwitch = true := by simpa using no_switch
    exact region.trans (if_neg none_)
  · rw [switched some_switch]
    simp [undoSwitch, c, state, active]
  · rw [switched some_switch]
    simp [undoSwitch, c, state]
  · obtain ⟨held, -, -, restore⟩ := begun some_left
    rw [held, fqueue, hwrites, htokens]
    exact ⟨rfl, rfl, restore⟩
  · rintro rfl
    obtain ⟨-, abandoned, work, -⟩ := begun (.inl rfl)
    exact ⟨abandoned, work⟩
  · rintro rfl some_record
    obtain ⟨-, abandoned, work, -⟩ := begun (.inr some_record)
    exact ⟨abandoned, work⟩
  · rintro rfl no_record
    obtain ⟨abandoned, work, writes', tokens', report⟩ := journalFault_ended cause (s := c) mode no_record
    have found : c.engine.count = 0 := no_record
    rw [fqueue, found] at report
    exact ⟨abandoned, work, writes', tokens', by rw [report, hwrites, htokens]; rfl⟩

/-! ### Completed seals (4.5) -/

theorem headSwitch_of_token {s : State} {g : GroupNo} {sw : Option TableRef} {q : List Entry}
    (h : s.queue.entries = .sealToken g sw :: q) : s.headSwitch = sw := by
  simp [State.headSwitch, h]

/-- A raised event and a count touch the Event Unit only. -/
theorem count_raise_eq (x : Counter) (e : Event) (s : State) :
    count x (raise e s) = { s with events := (count x (raise e s)).events } := rfl

theorem finishDrain_eq (s : State) : finishDrain s = { s with
    queue := { s.queue with entries := s.queue.entries.tail }
    engine := { s.engine with work := .idle } } := rfl

theorem closeGroup_eq (g : GroupNo) (s : State) : closeGroup g s = { s with
    engine := { s.engine with closed := g, count := 0, chain := 0 } } := rfl

theorem settleSwitch_eq (x : TableRef) (s : State) : settleSwitch x s = { s with
    engine := { s.engine with
      durable := { s.engine.durable with tableBase := x.base, tableCount := x.count } }
    region := { s.region with retiring := none }
    gate := { s.gate with causes := { s.gate.causes with table := false } } } := rfl

theorem sealed_of_plain {s : State} (h : s.headSwitch = none) : s.sealed = { s with
    engine := { s.engine with work := .idle, closed := s.openGroup, count := 0, chain := 0 }
    queue := { s.queue with entries := s.queue.entries.tail }, events := s.sealed.events } := by
  have eq : s.sealed = count .sealedGroups (raise .groupSealed (finishDrain
    (closeGroup s.openGroup s))) := by simp only [State.sealed, h]
  rw [eq, finishDrain_eq, closeGroup_eq]
  exact count_raise_eq _ _ _

theorem sealed_of_switch {s : State} {x : TableRef} (h : s.headSwitch = some x) : s.sealed = { s with
    engine := { s.engine with
      work := .idle, closed := s.openGroup, count := 0, chain := 0
      durable := { s.engine.durable with tableBase := x.base, tableCount := x.count } }
    queue := { s.queue with entries := s.queue.entries.tail }
    region := { s.region with retiring := none }
    gate := { s.gate with causes := { s.gate.causes with table := false } }
    events := s.sealed.events } := by
  have eq : s.sealed = count .sealedGroups (raise .groupSealed (finishDrain (settleSwitch x
    (closeGroup s.openGroup s)))) := by simp only [State.sealed, h]
  rw [eq, finishDrain_eq, settleSwitch_eq, closeGroup_eq]
  exact count_raise_eq _ _ _

/-- A seal raises its event and counts, and does no more to the Event Unit. -/
theorem sealed_events (s : State) : s.FlagsGain s.sealed (fun e => decide (e = .groupSealed)) ∧
    s.sealed.events.counters =
      { s.events.counters with sealedGroups := satInc s.events.counters.sealedGroups } ∧
    s.sealed.events = { s.events with
      flags := s.sealed.events.flags, attn := s.sealed.events.attn, pulse := s.sealed.events.pulse
      counters := s.sealed.events.counters } := by
  obtain ⟨d, sealed, events, settings⟩ : ∃ d, s.sealed = count .sealedGroups (raise .groupSealed d) ∧
      d.events = s.events ∧ d.settings = s.settings := by
    refine ⟨_, rfl, ?_⟩
    cases s.headSwitch <;> simp
  obtain ⟨counters, refusal, restore⟩ := Events.raise_rest s.events s.settings .groupSealed
  have raised : s.sealed.events = { s.events.raise s.settings .groupSealed with
      counters := (s.events.raise s.settings .groupSealed).counters.inc .sealedGroups } := by
    rw [sealed, ← events, ← settings]
    rfl
  refine ⟨fun e => ?_, ?_, ?_⟩
  · have kept : d.flagged e = s.flagged e := congrArg (fun v => v.flags.getLsbD e.bit) events
    rw [sealed, count_flagged, raise_flagged, kept]
  · rw [raised, counters]
    rfl
  · rw [raised]
    dsimp only
    rw [refusal, restore]

/-- Settles O36: what a completed seal leaves, ahead of the freeze at the last group. -/
theorem sealCompletes : Obligations.SealCompletes := by
  intro s a answer b g sw q access work ended queue
  let c := (s.setMem (s.memAfter a answer)).setPort { s.port with access := none }
  have taken : advanceEngine (s.readAnswer a answer) c = checkExhausted c.sealed := by
    have ends : b.advance c.settings.verify (s.readAnswer a answer) = .ended false := ended
    rw [advanceEngine_draining (s := c) work, ← sealComplete_eq]
    simp only [advanceDrain, ends]
  have closed : c.sealed.engine.closed = s.engine.closed + 1 := (sealed_fields c).2.2.2.1
  obtain ⟨flags, counters, events⟩ := sealed_events c
  have switch : c.headSwitch = sw := headSwitch_of_token queue
  have exec_eq := (accessComplete_engine s a answer access).trans (congrArg _ taken)
  have at_last : checkExhausted c.sealed =
      if s.engine.closed + 1 = 0xFFFFFFFE#32 then trigger .exhausted .none c.sealed else c.sealed := by
    rw [checkExhausted, closed]
    rfl
  have left : c.queue.entries.tail = q := congrArg List.tail queue
  have whole {e : Engine} {p : Posted} {r : RegionMap} {g : Gate}
      (blocks : c.sealed = { c with engine := e, queue := p, region := r, gate := g
                                    events := c.sealed.events }) :
      c.sealed = { c with engine := c.sealed.engine, queue := c.sealed.queue
                          region := c.sealed.region, gate := c.sealed.gate
                          events := { s.events with
                            flags := c.sealed.events.flags, attn := c.sealed.events.attn
                            pulse := c.sealed.events.pulse
                            counters := c.sealed.events.counters } } := by
    rw [show { s.events with
      flags := c.sealed.events.flags, attn := c.sealed.events.attn, pulse := c.sealed.events.pulse
      counters := c.sealed.events.counters } = c.sealed.events from events.symm,
      congrArg State.engine blocks, congrArg State.queue blocks, congrArg State.region blocks,
      congrArg State.gate blocks]
    exact blocks
  cases sw with
  | none =>
    have blocks := sealed_of_plain switch
    rw [left] at blocks
    have engine := congrArg State.engine blocks
    have region := congrArg State.region blocks
    have gate := congrArg State.gate blocks
    exact ⟨c.sealed, exec_eq.trans (congrArg _ at_last), engine, congrArg State.queue blocks, region,
      gate, flags, counters, whole blocks⟩
  | some x =>
    have blocks := sealed_of_switch switch
    rw [left] at blocks
    have engine := congrArg State.engine blocks
    have region := congrArg State.region blocks
    have gate := congrArg State.gate blocks
    exact ⟨c.sealed, exec_eq.trans (congrArg _ at_last), engine, congrArg State.queue blocks, region,
      gate, flags, counters, whole blocks⟩

end Sys2Proof.Machine
end

section
/-! PROOFS. The Store Engine's drains: the checks of a table and the read of a TABLE token. -/

namespace Sys2Proof.Machine

/-! ### The checks of a descriptor (R90) -/

theorem meets_iff (a b : Area) : a.meets b = true ↔ a.first ≤ b.last ∧ b.first ≤ a.last := by
  simp [Area.meets]

theorem meetsAny_iff (kept : List Area) (own : Area) : kept.any own.meets = true ↔
    ∃ x ∈ kept, x.first ≤ own.last ∧ own.first ≤ x.last := by
  simp only [List.any_eq_true, meets_iff, and_comm]

theorem clear_iff (kept : List Area) (first last : Nat) :
    (¬ ∃ x ∈ kept, x.first ≤ last ∧ first ≤ x.last) ↔
      ∀ x ∈ kept, last < x.first ∨ x.last < first := by
  simp only [not_exists, not_and, not_le]
  refine forall₂_congr fun x _ => ?_
  omega

theorem classOfWord_eq_some (w : Word) (c : RegionClass) : classOfWord w = some c ↔
    w = 0 ∧ c = .direct ∨ w = 1 ∧ c = .journaled ∨ w = 2 ∧ c = .guarded ∨ w = 3 ∧ c = .closed := by
  unfold classOfWord
  split_ifs with h0 h1 h2 h3
  · simp [h0, eq_comm]
  · simp [h1, eq_comm]
  · simp [h2, eq_comm]
  · simp [h3, eq_comm]
  · simp only [h0, h1, h2, h3, false_and, or_self]

theorem classOfWord_eq_none (w : Word) : classOfWord w = none ↔ 3 < w.toNat := by
  unfold classOfWord
  split_ifs with h0 h1 h2 h3
  · simp [h0]
  · simp [h1]
  · simp [h2]
  · simp [h3]
  · simp only [true_iff]
    bv_omega

theorem checkDescriptor_own {s : State} {n : Nat} {prev : Option Descriptor} {ws : List Word}
    (own : ∃ x ∈ s.anchorBlock :: s.window.toList, x.first ≤ n + 7 ∧ n ≤ x.last) :
    s.checkDescriptor n prev ws = .inl .reserved := by
  simp only [State.checkDescriptor, meetsAny_iff, if_pos own]

theorem checkDescriptor_check {s : State} {n : Nat} {prev : Option Descriptor} {ws : List Word}
    (own : ∀ x ∈ s.anchorBlock :: s.window.toList, n + 7 < x.first ∨ x.last < n)
    (check : wordSum ws ≠ 0xFFFF#16) : s.checkDescriptor n prev ws = .inl .check := by
  have away := (clear_iff _ n (n + 7)).2 own
  have fails : checkOk ws = false := Bool.eq_false_iff.2 (mt (checkOk_iff ws).1 check)
  simp only [State.checkDescriptor, meetsAny_iff, if_neg away, if_pos fails]

theorem checkDescriptor_cls {s : State} {n : Nat} {prev : Option Descriptor} {ws : List Word}
    (own : ∀ x ∈ s.anchorBlock :: s.window.toList, n + 7 < x.first ∨ x.last < n)
    (check : wordSum ws = 0xFFFF#16) (cls : classOfWord (ws.getD 4 0) = none) :
    s.checkDescriptor n prev ws = .inl .cls := by
  have away := (clear_iff _ n (n + 7)).2 own
  have cls' : classOfWord (wordAt ws 4) = none := cls
  simp only [State.checkDescriptor, meetsAny_iff, if_neg away, (checkOk_iff ws).2 check, cls',
    Bool.true_eq_false, if_false]

/-- A descriptor whose words are clear of the anchor block and the window is checked in order. -/
theorem checkDescriptor_body {s : State} {n : Nat} {prev : Option Descriptor} {ws : List Word}
    {c : RegionClass} {first last : Long}
    (own : ∀ x ∈ s.anchorBlock :: s.window.toList, n + 7 < x.first ∨ x.last < n)
    (check : wordSum ws = 0xFFFF#16) (cls : classOfWord (ws.getD 4 0) = some c)
    (hfirst : first = joinWords (ws.getD 0 0) (ws.getD 1 0))
    (hlast : last = joinWords (ws.getD 2 0) (ws.getD 3 0)) :
    s.checkDescriptor n prev ws =
      if last.toNat < first.toNat ∨ s.top ≤ last.toNat then .inl .range
      else if ∃ p ∈ prev, first.toNat ≤ p.last.toNat then .inl .order
      else if c = .journaled ∧ (first.toNat % 8 ≠ 0 ∨ (last.toNat + 1) % 8 ≠ 0) then .inl .align
      else if ∃ x ∈ s.anchorBlock :: s.window.toList, x.first ≤ last.toNat ∧ first.toNat ≤ x.last then
        .inl .reserved
      else .inr { first := first, last := last, cls := c, flags := ws.getD 5 0, tag := ws.getD 6 0 } := by
  subst hfirst hlast
  have away := (clear_iff _ n (n + 7)).2 own
  unfold State.checkDescriptor
  have cls' : classOfWord (wordAt ws 4) = some c := cls
  simp only [if_neg away, (checkOk_iff ws).2 check, cls', meetsAny_iff, descFirst, descLast]
  cases prev with
  | none => simp [wordAt]
  | some p => simp [wordAt]

/-- What a descriptor that passes every check is (R90). -/
theorem checkDescriptor_inr_iff (s : State) (n : Nat) (prev : Option Descriptor) (ws : List Word)
    (d : Descriptor) : s.checkDescriptor n prev ws = .inr d ↔
      (∀ x ∈ s.anchorBlock :: s.window.toList, n + 7 < x.first ∨ x.last < n) ∧
      wordSum ws = 0xFFFF#16 ∧ classOfWord (ws.getD 4 0) = some d.cls ∧
      d.first = joinWords (ws.getD 0 0) (ws.getD 1 0) ∧
      d.last = joinWords (ws.getD 2 0) (ws.getD 3 0) ∧ d.flags = ws.getD 5 0 ∧
      d.tag = ws.getD 6 0 ∧ d.first.toNat ≤ d.last.toNat ∧ d.last.toNat < s.top ∧
      (∀ p, prev = some p → p.last.toNat < d.first.toNat) ∧
      (d.cls = .journaled → d.first.toNat % 8 = 0 ∧ (d.last.toNat + 1) % 8 = 0) ∧
      (∀ x ∈ s.anchorBlock :: s.window.toList,
        d.last.toNat < x.first ∨ x.last < d.first.toNat) := by
  constructor
  · intro kept
    have own : ∀ x ∈ s.anchorBlock :: s.window.toList, n + 7 < x.first ∨ x.last < n := by
      by_contra own
      rw [← clear_iff, not_not] at own
      simp [checkDescriptor_own own] at kept
    have check : wordSum ws = 0xFFFF#16 := by
      by_contra check
      simp [checkDescriptor_check own check] at kept
    cases cls : classOfWord (ws.getD 4 0) with
    | none => simp [checkDescriptor_cls own check cls] at kept
    | some c =>
      rw [checkDescriptor_body own check cls rfl rfl] at kept
      split_ifs at kept with range order align reserved
      obtain rfl := Sum.inr.inj kept
      obtain ⟨ascending, inside⟩ := not_or.1 range
      refine ⟨own, check, rfl, rfl, rfl, rfl, rfl, not_lt.1 ascending, not_le.1 inside,
        fun p hp => ?_, fun journaled => ?_, (clear_iff _ _ _).1 reserved⟩
      · by_contra above
        exact order ⟨p, hp, not_lt.1 above⟩
      · by_contra misaligned
        exact align ⟨journaled, not_and_or.1 misaligned⟩
  · rintro ⟨own, check, cls, first, last, flags, tag, ascending, inside, order, align, away⟩
    rw [checkDescriptor_body own check cls first last, if_neg (by omega), if_neg ?_, if_neg ?_,
      if_neg ((clear_iff _ _ _).2 away), ← flags, ← tag]
    · rintro ⟨journaled, misaligned⟩
      have := align journaled
      omega
    · rintro ⟨p, hp, above⟩
      have := order p hp
      omega

/-! ### The checks of a whole table (R91) -/

theorem ownExtent_meets_iff (x : Table) (d : Descriptor) :
    x.area.meets { first := d.first.toNat, last := d.last.toNat } = true ↔
      x.base.toNat ≤ d.last.toNat ∧ d.first.toNat ≤ x.base.toNat + 8 * x.descs.length - 1 :=
  meets_iff _ _

theorem ownExtent_clear_iff (x : Table) (d : Descriptor) :
    x.area.meets { first := d.first.toNat, last := d.last.toNat } = false ↔
      d.last.toNat < x.base.toNat ∨ x.base.toNat + 8 * x.descs.length - 1 < d.first.toNat := by
  rw [← Bool.not_eq_true, ownExtent_meets_iff]
  omega

theorem checkWhole_own {s : State} {x : Table} {locks : Bool} {before after : List Descriptor}
    {d : Descriptor} (descs : x.descs = before ++ d :: after)
    (meets : x.base.toNat ≤ d.last.toNat ∧
      d.first.toNat ≤ x.base.toNat + 8 * x.descs.length - 1)
    (clear : ∀ e ∈ before, e.last.toNat < x.base.toNat ∨
      x.base.toNat + 8 * x.descs.length - 1 < e.first.toNat) :
    s.checkWhole x locks = some (.reserved, before.length) := by
  have found : ownExtentIndex x = some before.length := by
    rw [ownExtentIndex, descs, List.findIdx?_append,
      List.findIdx?_eq_none_iff.2 fun e he => (ownExtent_clear_iff x e).2 (clear e he),
      List.findIdx?_cons, if_pos ((ownExtent_meets_iff x d).2 meets)]
    simp
  simp only [State.checkWhole, found]

theorem lockKept_iff (x : Table) (l : Descriptor) : lockKept x l = true ↔ x.KeepsLock l := by
  simp [lockKept, Table.KeepsLock, Descriptor.isLock, and_assoc]

/-- The locked descriptors that a new table does not keep are sought in the order of the active table. -/
theorem lockSet_find {s : State} {y : Table} (active : s.region.active = some y) (x : Table) :
    s.lockSet.find? (fun p => !lockKept x p.2) =
      (y.descs.zipIdx.find? fun p => p.1.isLock && !lockKept x p.1).map fun p => (p.2, p.1) := by
  simp [State.lockSet, active]

theorem checkWhole_lock {s : State} {x y : Table} (active : s.region.active = some y)
    (clear : ownExtentIndex x = none) {before after : List Descriptor} {l : Descriptor}
    (descs : y.descs = before ++ l :: after) (locked : l.flags.getLsbD 1 = true) (lost : ¬ x.KeepsLock l)
    (kept : ∀ m ∈ before, m.flags.getLsbD 1 = true → x.KeepsLock m) :
    s.checkWhole x true = some (.lock, before.length) := by
  have lost' : lockKept x l = false := by rw [← Bool.not_eq_true, lockKept_iff]; exact lost
  have none_before : before.zipIdx.find? (fun p => p.1.isLock && !lockKept x p.1) = none := by
    refine List.find?_eq_none.2 fun p hp => ?_
    by_cases lock : p.1.isLock = true
    · simp [(lockKept_iff x p.1).2 (kept p.1 (List.fst_mem_of_mem_zipIdx hp) lock)]
    · simp [lock]
  have found : s.lockSet.find? (fun p => !lockKept x p.2) = some (before.length, l) := by
    rw [lockSet_find active, descs, List.zipIdx_append, List.find?_append, none_before]
    simp [Descriptor.isLock, locked, lost']
  simp only [State.checkWhole, clear, found, if_true]

theorem checkWhole_none {s : State} {x : Table} (clear : ownExtentIndex x = none)
    (kept : ∀ y, s.region.active = some y → ∀ l ∈ y.descs, l.flags.getLsbD 1 = true → x.KeepsLock l) :
    s.checkWhole x true = none := by
  have found : s.lockSet.find? (fun p => !lockKept x p.2) = none := by
    cases active : s.region.active with
    | none => simp [State.lockSet, active]
    | some y =>
      rw [lockSet_find active, Option.map_eq_none_iff, List.find?_eq_none]
      intro p hp
      by_cases lock : p.1.isLock = true
      · simp [(lockKept_iff x p.1).2 (kept y active p.1 (List.fst_mem_of_mem_zipIdx hp) lock)]
      · simp [lock]
  simp only [State.checkWhole, clear, found, if_true]

/-! ### The read of a TABLE token (R78, R90 to R92) -/

/-- A raised event touches the flags, ATTN and the pulse only. -/
theorem raise_touches (e : Event) (s : State) : (raise e s).events = { s.events with
    flags := (raise e s).events.flags, attn := (raise e s).events.attn
    pulse := (raise e s).events.pulse } := by
  obtain ⟨counters, refusal, restore⟩ := Events.raise_rest s.events s.settings e
  have raised : (raise e s).events = s.events.raise s.settings e := rfl
  rw [raised]
  dsimp only
  rw [← counters, ← refusal, ← restore]

theorem finishDrain_raise (e : Event) (s : State) : s.FlagsGain (finishDrain (raise e s))
      (fun f => decide (f = e)) ∧ finishDrain (raise e s) = { s with
    queue := { s.queue with entries := s.queue.entries.tail }
    engine := { s.engine with work := .idle }
    events := { s.events with
      flags := (finishDrain (raise e s)).events.flags, attn := (finishDrain (raise e s)).events.attn
      pulse := (finishDrain (raise e s)).events.pulse } } :=
  ⟨fun f => raise_flagged e f s, congrArg (fun v => { s with
    queue := { s.queue with entries := s.queue.entries.tail }
    engine := { s.engine with work := .idle }, events := v }) (raise_touches e s)⟩

/-- The last steps of a TABLE token's read: the state, the result, the event, and the token leaves. -/
theorem endsTableRead_of_finish {s : State} {base : Long} {q : List Entry}
    (queue : s.queue.entries = .tableToken base :: q) (state : TableState) (event : Event)
    (outcome : TableOutcome) (read index : Nat) (t : Table) :
    s.EndsTableRead (finishDrain (raise event (setTableResult outcome .load t.base read index
      ((s.setPort { s.port with access := none }).setRegion { s.region with state := state }))))
      q state event { outcome := outcome, origin := .load, base := t.base, read := read, index := index
                      tick := s.time.tick } := by
  obtain ⟨flags, blocks⟩ := finishDrain_raise event (setTableResult outcome .load t.base read index
    ((s.setPort { s.port with access := none }).setRegion { s.region with state := state }))
  refine ⟨flags, ?_⟩
  have left : q = s.queue.entries.tail := by rw [queue]; rfl
  subst left
  exact blocks

theorem endTableRead_accepted {s : State} {base : Long} {q : List Entry}
    (queue : s.queue.entries = .tableToken base :: q) (read index : Nat) (t : Table) :
    s.EndsTableRead (endTableRead .accepted read index t (s.setPort { s.port with access := none }))
      q (.ready t) .tableReady { outcome := .accepted, origin := .load, base := t.base, read := read
                                 index := index, tick := s.time.tick } :=
  endsTableRead_of_finish queue (.ready t) .tableReady .accepted read index t

theorem endTableRead_rejected {s : State} {base : Long} {q : List Entry}
    (queue : s.queue.entries = .tableToken base :: q) {e : TableOutcome} (rejected : e ≠ .accepted)
    (read index : Nat) (t : Table) :
    s.EndsTableRead (endTableRead e read index t (s.setPort { s.port with access := none }))
      q .none .tableError { outcome := e, origin := .load, base := t.base, read := read
                            index := index, tick := s.time.tick } := by
  have ends := endsTableRead_of_finish queue .none .tableError e read index t
  cases e with
  | accepted => exact absurd rfl rejected
  | _ => exact ends

/-- A check never answers ACCEPTED as its error. -/
theorem checkDescriptor_not_accepted (s : State) (n : Nat) (prev : Option Descriptor) (ws : List Word) :
    s.checkDescriptor n prev ws ≠ .inl .accepted := by
  unfold State.checkDescriptor
  dsimp only
  (repeat' split) <;> simp

theorem checkWhole_not_accepted (s : State) (x : Table) (locks : Bool) (i : Nat) :
    s.checkWhole x locks ≠ some (.accepted, i) := by
  unfold State.checkWhole
  split
  · simp
  · split_ifs
    · split <;> simp
    · simp

theorem headBase_of_token {s : State} {base : Long} {q : List Entry}
    (h : s.queue.entries = .tableToken base :: q) : s.headBase = base := by
  simp [State.headBase, h]

section takeDescriptor

variable {s : State} {base : Long} {q : List Entry} {kept : List Descriptor} {ws : List Word}

theorem takeDescriptor_rejected (queue : s.queue.entries = .tableToken base :: q) {e : TableOutcome}
    (rejected : s.checkDescriptor (base.toNat + 8 * kept.length) kept.getLast? ws = .inl e) :
    takeDescriptor kept ws s =
      endTableRead e (kept.length + 1) kept.length { base := base, descs := kept } s := by
  simp only [takeDescriptor, headBase_of_token queue, rejected]

/-- A descriptor that passes: the table ends with END, or at the sixteenth, or another one is read. -/
theorem takeDescriptor_passed (queue : s.queue.entries = .tableToken base :: q) {d : Descriptor}
    (passed : s.checkDescriptor (base.toNat + 8 * kept.length) kept.getLast? ws = .inr d) :
    (d.flags.getLsbD 0 = false → kept.length ≠ 15 →
      takeDescriptor kept ws s = setDrain (.tableRead [] (kept ++ [d])) s) ∧
    (d.flags.getLsbD 0 = false → kept.length = 15 →
      takeDescriptor kept ws s = endTableRead .noEnd 16 15 { base := base, descs := kept ++ [d] } s) ∧
    (∀ e i, d.flags.getLsbD 0 = true →
      s.checkWhole { base := base, descs := kept ++ [d] } true = some (e, i) →
      takeDescriptor kept ws s =
        endTableRead e (kept.length + 1) i { base := base, descs := kept ++ [d] } s) ∧
    (d.flags.getLsbD 0 = true → s.checkWhole { base := base, descs := kept ++ [d] } true = none →
      takeDescriptor kept ws s =
        endTableRead .accepted (kept.length + 1) 0 { base := base, descs := kept ++ [d] } s) := by
  refine ⟨fun more room => ?_, fun more full => ?_, fun e i ends rejected => ?_, fun ends passes => ?_⟩
  · have room' : ¬ kept.length + 1 = Config.maxDescriptors := fun h => room (Nat.succ.inj h)
    simp only [takeDescriptor, headBase_of_token queue, passed, Descriptor.isEnd, more, if_neg room',
      Bool.false_eq_true, if_false]
  · have full' : kept.length + 1 = Config.maxDescriptors := congrArg Nat.succ full
    simp only [takeDescriptor, headBase_of_token queue, passed, Descriptor.isEnd, more, if_pos full',
      Bool.false_eq_true, if_false]
    rw [full]
  · simp only [takeDescriptor, headBase_of_token queue, passed, Descriptor.isEnd, ends, rejected, if_true]
  · simp only [takeDescriptor, headBase_of_token queue, passed, Descriptor.isEnd, ends, passes, if_true]

end takeDescriptor

/-- Settles O37: the checks of a descriptor and of a table, and the read of a TABLE token. -/
theorem tableReads : Obligations.TableReads := by
  refine ⟨fun s => ⟨rfl, rfl⟩, fun s n prev ws d => ?_, ?_, ?_, ?_⟩
  · simp only [checkDescriptor_inr_iff, classOfWord_eq_some]
  · intro s n prev ws first last hfirst hlast
    subst hfirst hlast
    refine ⟨checkDescriptor_own, fun own => ⟨checkDescriptor_check own, fun check =>
      ⟨fun high => checkDescriptor_cls own check ((classOfWord_eq_none _).2 high), fun low => ?_⟩⟩⟩
    obtain ⟨c, cls⟩ := Option.ne_none_iff_exists'.1 (mt (classOfWord_eq_none (ws.getD 4 0)).1 (not_lt.2 low))
    have journaled : c = .journaled ↔ ws.getD 4 0 = 1 := by
      have code := (classOfWord_eq_some _ c).1 cls
      constructor
      · rintro rfl
        simpa using code
      · intro one
        rw [one] at code
        simpa using code
    rw [checkDescriptor_body own check cls rfl rfl]
    refine ⟨fun range => if_pos range, fun ascending inside => ?_⟩
    rw [if_neg (by omega)]
    refine ⟨fun p prev above => if_pos ⟨p, prev, above⟩, fun order => ?_⟩
    rw [if_neg]
    refine ⟨fun one misaligned => if_pos ⟨journaled.2 one, misaligned⟩, fun aligned meets => ?_⟩
    rw [if_neg, if_pos meets]
    · rintro ⟨rfl, misaligned⟩
      obtain other | ⟨first, last⟩ := aligned
      · exact other (journaled.1 rfl)
      · exact misaligned.elim (fun h => h first) fun h => h last
    · rintro ⟨p, prev, above⟩
      exact absurd (order p prev) (not_lt.2 above)
  · intro s x fin locks hfin
    subst hfin
    refine ⟨fun before d after descs below above clear => checkWhole_own descs ⟨below, above⟩ clear,
      fun clear => ?_⟩
    have none_ : ownExtentIndex x = none :=
      List.findIdx?_eq_none_iff.2 fun e he => (ownExtent_clear_iff x e).2 (clear e he)
    exact ⟨by simp only [State.checkWhole, none_]; rfl,
      fun y before l after active descs locked lost kept =>
        checkWhole_lock active none_ descs locked lost kept, checkWhole_none none_⟩
  · intro s a base q got kept x access read hx queue work
    have next := advanceEngine_draining (s := s.setPort { s.port with access := none }) work x
    have exec_eq : exec (.accessComplete none) s = .next (advanceDrain (.tableRead got kept) x
        (s.setPort { s.port with access := none })) := by
      rw [accessComplete_engine_read s a access read, ← hx, next]
    have whole : got.length = 7 → advanceDrain (.tableRead got kept) x
        (s.setPort { s.port with access := none }) =
          takeDescriptor kept (got ++ [x]) (s.setPort { s.port with access := none }) := by
      intro seven
      have : ¬ (got ++ [x]).length < 8 := by simp; omega
      simp only [advanceDrain, this, if_false]
    refine ⟨?_, fun short => ?_, fun e seven rejected => ?_, fun d seven passed => ⟨fun open_ room => ?_,
      fun open_ full => ?_, fun e i ended rejected => ?_, fun ended passes => ?_⟩⟩
    · simp only [State.engineAccess, work, headBase_of_token queue]
    · have : (got ++ [x]).length < 8 := by simp; omega
      rw [exec_eq]
      simp only [advanceDrain, this, if_true]
      rfl
    · have rejection : e ≠ .accepted := fun h => checkDescriptor_not_accepted s _ _ _ (h ▸ rejected)
      have taken := takeDescriptor_rejected (s := s.setPort { s.port with access := none }) queue rejected
      exact ⟨_, exec_eq.trans (congrArg _ ((whole seven).trans taken)),
        endTableRead_rejected queue rejection _ _ _⟩
    · have taken := takeDescriptor_passed (s := s.setPort { s.port with access := none }) queue passed
      exact exec_eq.trans (congrArg _ ((whole seven).trans (taken.1 open_ (by omega))))
    · have taken := takeDescriptor_passed (s := s.setPort { s.port with access := none }) queue passed
      exact ⟨_, exec_eq.trans (congrArg _ ((whole seven).trans (taken.2.1 open_ full))),
        endTableRead_rejected queue (by decide) _ _ _⟩
    · have rejection : e ≠ .accepted := fun h => checkWhole_not_accepted s _ _ _ (h ▸ rejected)
      have taken := takeDescriptor_passed (s := s.setPort { s.port with access := none }) queue passed
      exact ⟨_, exec_eq.trans (congrArg _ ((whole seven).trans (taken.2.2.1 e i ended rejected))),
        endTableRead_rejected queue rejection _ _ _⟩
    · have taken := takeDescriptor_passed (s := s.setPort { s.port with access := none }) queue passed
      exact ⟨_, exec_eq.trans (congrArg _ ((whole seven).trans (taken.2.2.2 ended passes))),
        endTableRead_accepted queue _ _ _⟩

end Sys2Proof.Machine
end

section
/-! PROOFS. Live rollback: its beginning, the slots it restores, and its end. -/

namespace Sys2Proof.Machine

/-! ### The start condition and the beginning (R123, R124) -/

theorem startCondition_iff (s : State) : s.startCondition = true ↔
    (∀ e ∈ s.queue.entries, e.isJournaled = false) ∧
    (∀ e ∈ s.queue.entries.tail, e.isSeal = false) ∧
    (∀ g sw q, s.queue.entries = .sealToken g sw :: q → s.engine.abandoned = some g) := by
  cases queue : s.queue.entries with
  | nil => simp [State.startCondition, State.heldAtHead, queue]
  | cons e q =>
    cases e with
    | write w => simp [State.startCondition, State.heldAtHead, queue, Entry.isSeal]
    | tableToken b => simp [State.startCondition, State.heldAtHead, queue, Entry.isSeal]
    | sealToken g sw =>
      by_cases held : s.engine.abandoned = some g
      · simp [State.startCondition, State.heldAtHead, queue, held, Entry.isSeal]
      · simp [State.startCondition, State.heldAtHead, queue, held, Entry.isSeal]

theorem releaseHeld_up (s : State) : (releaseHeld s).up = match s.up.cycle with
    | some c => if c.phase = .readHeld then
        { s.up with cycle := some { c with phase := .reading }, timer := none } else s.up
    | none => s.up := by
  unfold releaseHeld
  cases s.up.cycle with
  | none => rfl
  | some c => by_cases held : c.phase = .readHeld <;> simp [held]

theorem releaseHeld_touches (s : State) : releaseHeld s = { s with up := (releaseHeld s).up } := by
  unfold releaseHeld
  cases s.up.cycle with
  | none => rfl
  | some c => by_cases held : c.phase = .readHeld <;> simp [held, State.setUp]

/-- The report of a live rollback that ends in this state. -/
def Rollback.report (r : Rollback) (outcome : RestoreOutcome) (stop idx : Option Nat) (s : State) :
    RestoreReport :=
  { origin := r.origin, outcome := outcome, examined := some r.group, closed := s.engine.closed
    found := r.count, restored := r.restored, stopSlot := stop.map (BitVec.ofNat 16), stopReason := none
    mismatches := r.mismatches, anchorIndex := idx, classes := none, tornAnchor := false
    discardedWrites := s.queue.discardedWrites, discardedTokens := s.queue.discardedTokens
    tick := s.time.tick }

theorem report_empty {r : Rollback} (h : r.count = 0) (s : State) :
    r.report .empty none none s =
      { origin := r.origin, outcome := .empty, examined := some r.group, closed := s.engine.closed
        found := 0, restored := r.restored, stopSlot := none, stopReason := none
        mismatches := r.mismatches, anchorIndex := none, classes := none, tornAnchor := false
        discardedWrites := s.queue.discardedWrites, discardedTokens := s.queue.discardedTokens
        tick := s.time.tick } := by
  rw [Rollback.report, h]
  rfl

/-- The end of a live rollback, block by block (R130). -/
theorem endRollback_eq (r : Rollback) (outcome : RestoreOutcome) (stop idx : Option Nat) (s : State) :
    endRollback r outcome stop idx s = { s with
      engine := { s.engine with work := .idle, abandoned := none }
      queue := { s.queue with discardedWrites := 0, discardedTokens := 0 }
      events := { s.events with restore := r.report outcome stop idx s }
      up := (releaseHeld s).up } := by
  have up : ∀ x : State, x.up = s.up → (releaseHeld x).up = (releaseHeld s).up := by
    intro x same
    rw [releaseHeld_up, releaseHeld_up, same]
  refine (releaseHeld_touches _).trans ?_
  rw [up _ (by simp)]
  rfl

/-- A live rollback with no record ends EMPTY at once (R128). -/
theorem beginRestores_empty {r : Rollback} (h : r.count = 0) (s : State) :
    beginRestores r s = endRollback r .empty none none s := if_pos h

theorem beginRestores_some {r : Rollback} (h : r.count ≠ 0) (s : State) :
    beginRestores r s = setRoll r (.readSlot (r.count.toNat - 1) s.engine.chain []) s := if_neg h

/-- Settles O38: when a live rollback begins, and what it begins with. -/
theorem rollbackBegins : Obligations.RollbackBegins := by
  intro s
  refine ⟨startCondition_iff s, fun stays => ?_, fun o order idle start => ?_⟩
  · have not_ready : ¬ s.rollbackReady = true := by
      rw [rollbackReady_iff]
      rintro ⟨idle, order, start⟩
      obtain none_ | busy | fails := stays
      · exact order none_
      · exact busy idle
      · simp [start] at fails
    cases order : s.gate.order <;> simp [exec, execLiveRollbackBegin, beginOrdered, order, not_ready]
  · have ready := (rollbackReady_iff s).2 ⟨idle, by simp [order], start⟩
    have begun : exec .liveRollbackBegin s = .next (beginRollback o s) := by
      simp only [exec, execLiveRollbackBegin, beginOrdered, order, ready, if_true]
    refine ⟨fun some_record => ?_, fun no_record => ?_⟩
    · rw [begun, beginRollback, beginRestores_some (by exact some_record)]
      rfl
    · refine ⟨_, begun, ?_⟩
      rw [beginRollback, beginRestores_empty (by exact no_record), endRollback_eq]
      refine ⟨?_, rfl, ?_, ?_, ?_⟩
      · rw [← idle]; rfl
      · rw [report_empty (by exact no_record)]; rfl
      · exact releaseHeld_up _
      · rfl

/-! ### The slots (R125 to R128, R82) -/

theorem advanceEngine_rollback {s : State} {r : Rollback} (work : s.engine.work = .rollingBack r)
    (data : Word) : advanceEngine data s = advanceRollback r data s := by
  simp only [advanceEngine, work]

/-- Settles O39: the retraction, the slots read and restored, and the VOIDED anchor begun. -/
theorem slotsRestored : Obligations.SlotsRestored := by
  intro s a r access work
  have completed : ∀ answer, exec (.accessComplete answer) s = .next (advanceRollback r
      (s.readAnswer a answer) ((s.setMem (s.memAfter a answer)).setPort
        { s.port with access := none })) := by
    intro answer
    have next := advanceEngine_rollback (s := (s.setMem (s.memAfter a answer)).setPort
      { s.port with access := none }) work (s.readAnswer a answer)
    rw [accessComplete_engine s a answer access, next]
  refine ⟨fun b d answer missed phase ended hmissed => ?_, fun j expect x got phase read hx => ?_,
    fun j chain b d answer phase ended => ?_⟩
  · subst hmissed
    have restores : exec (.accessComplete answer) s = .next (beginRestores
        (if d then { r with mismatches := satInc r.mismatches } else r)
        ((s.setMem (s.memAfter a answer)).setPort { s.port with access := none })) := by
      have ends : b.advance ((s.setMem (s.memAfter a answer)).setPort
        { s.port with access := none }).settings.verify (s.readAnswer a answer) = .ended d := ended
      rw [completed]
      simp only [advanceRollback, phase, ends]
    have same : (if d then { r with mismatches := satInc r.mismatches } else r) =
        { r with mismatches := if d then satInc r.mismatches else r.mismatches } := by
      cases d <;> rfl
    rw [same] at restores
    refine ⟨fun some_record => ?_, fun no_record => ?_⟩
    · rw [restores, beginRestores_some (by exact some_record)]
      rfl
    · refine ⟨_, restores, ?_⟩
      rw [beginRestores_empty (by exact no_record), endRollback_eq]
      refine ⟨rfl, rfl, ?_, ?_, rfl⟩
      · rw [report_empty (by exact no_record)]; rfl
      · exact releaseHeld_up _
  · have next := completed none
    have answer : s.readAnswer a none = x := hx.symm
    rw [answer, memAfter_read s a read] at next
    have advanced : advanceRollback r x ((s.setMem s.mem).setPort { s.port with access := none }) =
        advanceRollback r x (s.setPort { s.port with access := none }) := rfl
    rw [next, advanced]
    refine ⟨by simp only [State.engineAccess, work, phase]; rfl, fun short => ?_, fun ws full hws => ?_⟩
    · have : (got ++ [x]).length < 16 := by simp; omega
      simp only [advanceRollback, phase, if_pos this]
      rfl
    · subst hws
      have : ¬ (got ++ [x]).length < 16 := by simp; omega
      refine ⟨fun belongs => ?_, fun other => ?_⟩
      · have test := (slotBelongs_iff r.group j expect
          ((s.setPort { s.port with access := none }).anchorAddr 0) (got ++ [x])).2 belongs
        simp only [advanceRollback, phase, if_neg this, if_pos test]
        rfl
      · have test := mt (slotBelongs_iff r.group j expect
          ((s.setPort { s.port with access := none }).anchorAddr 0) (got ++ [x])).1 other
        simp only [advanceRollback, phase, if_neg this, if_neg test]
        rfl
  · have ends : b.advance ((s.setMem (s.memAfter a answer)).setPort
        { s.port with access := none }).settings.verify (s.readAnswer a answer) = .ended d := ended
    rw [completed]
    simp only [advanceRollback, phase, ends]
    cases j with
    | zero => cases d <;> rfl
    | succ j => cases d <;> rfl

/-! ### The end (R3, R127, R130) -/

/-- In FROZEN the last group adds cause EXHAUSTED and does no more (R5). -/
theorem checkExhausted_of_frozen {s : State} (h : s.gate.opState = .frozen) : checkExhausted s =
    s.setGate { s.gate with causes := if s.engine.closed = 0xFFFFFFFE#32 then
      { s.gate.causes with exhausted := true } else s.gate.causes } := by
  have last : Config.lastGroup = 0xFFFFFFFE#32 := rfl
  unfold checkExhausted
  rw [last]
  split
  · exact trigger_of_not_stronger h _ (Nat.not_lt_zero _)
  · rfl

/-- The end of a rollback whose VOIDED anchor is written, as its parts. -/
theorem voidDone_parts (r : Rollback) (stop : Option Nat) (differs : Bool) (s : State) :
    voidDone r stop differs s = endRollback
      { r with mismatches := if differs then satInc r.mismatches else r.mismatches }
      (if stop.isSome then .torn else .voided) stop (some (groupIndex r.group))
      (checkExhausted (s.voidedBy r.group)) := by
  cases differs <;> rfl

/-- Behind a VOIDED anchor: the closed group, the numbers, and the event with its count. -/
theorem voidedBy_eq (s : State) (g : GroupNo) : s.FlagsGain (s.voidedBy g) (fun e => decide (e = .voided)) ∧
    (s.voidedBy g).events.counters =
      { s.events.counters with voidedGroups := satInc s.events.counters.voidedGroups } ∧
    s.voidedBy g = { s with
      engine := { s.engine with closed := g, count := 0, chain := 0 }
      intake := { s.intake with group := s.intake.group + 1 }
      queue := { s.queue with entries := s.queue.entries.map Entry.renumbered }
      events := (s.voidedBy g).events } := by
  refine ⟨fun e => ?_, ?_, ?_⟩
  · simp only [State.voidedBy, count_flagged, raise_flagged]
    rfl
  · have counters := (Events.raise_rest s.events s.settings .voided).1
    rw [← counters]
    rfl
  · exact count_raise_eq _ _ _

/-- Settles O40: what the end of a live rollback leaves. -/
theorem rollbackEnds : Obligations.RollbackEnds := by
  intro s a answer r stop b d access work phase ended frozen
  let c := (s.setMem (s.memAfter a answer)).setPort { s.port with access := none }
  have taken : advanceEngine (s.readAnswer a answer) c = voidDone r stop d c := by
    have ends : b.advance c.settings.verify (s.readAnswer a answer) = .ended d := ended
    rw [advanceEngine_rollback (s := c) work]
    simp only [advanceRollback, phase, ends]
  obtain ⟨flags, counters, blocks⟩ := voidedBy_eq c r.group
  have frozen' : (c.voidedBy r.group).gate.opState = .frozen := by rw [blocks]; exact frozen
  refine ⟨_, (accessComplete_engine s a answer access).trans (congrArg _ taken), ?_⟩
  rw [voidDone_parts, endRollback_eq, checkExhausted_of_frozen frozen']
  have engine := congrArg State.engine blocks
  have queue := congrArg State.queue blocks
  have intake := congrArg State.intake blocks
  have mem := congrArg State.mem blocks
  have region := congrArg State.region blocks
  have watch := congrArg State.watch blocks
  have settings := congrArg State.settings blocks
  have gate := congrArg State.gate blocks
  have up := congrArg State.up blocks
  have time := congrArg State.time blocks
  have closed : (c.voidedBy r.group).engine.closed = r.group := by rw [engine]
  have entries : (c.voidedBy r.group).queue.entries = s.queue.entries.map Entry.renumbered := by
    rw [queue]; rfl
  refine ⟨congrArg (fun e : Engine => { e with work := .idle, abandoned := none }) engine,
    intake, (congrArg List.length entries).trans (List.length_map _), fun i g sw token => ?_, fun i e entry other => ?_, rfl, rfl, flags,
    counters, ?_, ?_, ?_, mem, region, watch, settings⟩
  · refine (congrArg (·[i]?) entries).trans ?_
    rw [List.getElem?_map, token]
    rfl
  · refine (congrArg (·[i]?) entries).trans ?_
    rw [List.getElem?_map, entry]
    cases e with
    | sealToken g sw => cases other
    | write w => rfl
    | tableToken base => rfl
  · dsimp only [Rollback.report, State.setGate]
    rw [closed, queue, time]
    rfl
  · dsimp only [State.setGate]
    rw [closed, gate]
    rfl
  · intro cycle current held
    refine (releaseHeld_up _).trans ?_
    dsimp only [State.setGate]
    rw [up]
    simp only [c, State.setPort, State.setMem, current, held, if_true]

end Sys2Proof.Machine
end

section
/-! PROOFS. Start-up recovery: what the anchors decide, the scan, and the load of the table. -/

namespace Sys2Proof.Machine

/-! ### The gate at the end of recovery and of Format (R102, R116) -/

/-- The causes when the lines have been examined. -/
def State.examinedCauses (s : State) : CauseSet := { s.gate.causes with
  pfail := s.gate.causes.pfail || (s.settings.pfailEnabled && s.gate.pfail.active)
  fault := s.gate.causes.fault || (s.settings.faultEnabled && s.gate.fault.active) }

theorem examineLine_pfail (s : State) : examineLine .pfail s = s.setGate { s.gate with causes :=
    { s.gate.causes with
      pfail := s.gate.causes.pfail || (s.settings.pfailEnabled && s.gate.pfail.active) } } := by
  unfold examineLine State.lineEnabled State.input
  dsimp only
  by_cases active : (s.settings.pfailEnabled && s.gate.pfail.active) = true
  · rw [if_pos active, active, Bool.or_true]
    rfl
  · rw [if_neg active, Bool.eq_false_iff.2 active, Bool.or_false]
    rfl

theorem examineLine_fault (s : State) : examineLine .fault s = s.setGate { s.gate with causes :=
    { s.gate.causes with
      fault := s.gate.causes.fault || (s.settings.faultEnabled && s.gate.fault.active) } } := by
  unfold examineLine State.lineEnabled State.input
  dsimp only
  by_cases active : (s.settings.faultEnabled && s.gate.fault.active) = true
  · rw [if_pos active, active, Bool.or_true]
    rfl
  · rw [if_neg active, Bool.eq_false_iff.2 active, Bool.or_false]
    rfl

theorem openGate_eq (s : State) : openGate s =
    if s.examinedCauses.any then
      raise .froze (setOpState .frozen (s.setGate { s.gate with causes := s.examinedCauses }))
    else setOpState .running (s.setGate { s.gate with causes := s.examinedCauses }) := by
  unfold openGate
  rw [examineLine_pfail, examineLine_fault]
  rfl

theorem openGate_gate (s : State) : (openGate s).gate = { s.gate with
    causes := s.examinedCauses, opState := if s.examinedCauses.any then .frozen else .running
    frz := s.examinedCauses.any, ready := true } := by
  rw [openGate_eq]
  cases any : s.examinedCauses.any <;> rfl

theorem openGate_flags (s : State) :
    s.FlagsGain (openGate s) (fun e => s.examinedCauses.any && decide (e = .froze)) := by
  intro e
  rw [openGate_eq]
  cases any : s.examinedCauses.any
  · simp [setOpState, State.flagged]
  · simp only [if_true, raise_flagged, Bool.true_and]
    rfl

theorem openGate_touches (s : State) : openGate s = { s with
    gate := (openGate s).gate
    events := { s.events with flags := (openGate s).events.flags, attn := (openGate s).events.attn
                              pulse := (openGate s).events.pulse } } := by
  rw [openGate_eq]
  cases any : s.examinedCauses.any
  · rfl
  · exact congrArg (fun v => { s with
      gate := (setOpState .frozen (s.setGate { s.gate with causes := s.examinedCauses })).gate
      events := v }) (raise_touches .froze _)

/-! ### The end of recovery (R133, R138) -/

/-- The report of a recovery that ends in this state. -/
def Recovery.report (r : Recovery) (outcome : RestoreOutcome) (s : State) : RestoreReport :=
  { origin := .startUp, outcome := outcome, examined := r.examined, closed := s.engine.closed
    found := r.found, restored := r.restored, stopSlot := r.stop.map (·.1)
    stopReason := r.stop.map (·.2), mismatches := r.mismatches, anchorIndex := r.current
    classes := r.classes, tornAnchor := tornFlag r.classes
    discardedWrites := s.queue.discardedWrites, discardedTokens := s.queue.discardedTokens
    tick := s.time.tick }

/-- The state with the report of a recovery filled. -/
def State.reported (s : State) (r : Machine.Recovery) (outcome : RestoreOutcome) : State := { s with
  events := { s.events with restore := r.report outcome s }
  queue := { s.queue with discardedWrites := 0, discardedTokens := 0 } }

theorem endRecovery_eq (r : Recovery) (outcome : RestoreOutcome) (gate : State → State) (s : State) :
    endRecovery r outcome gate s = raise .recovered ((gate (s.reported r outcome)).setEngine
      { (gate (s.reported r outcome)).engine with
        work := .idle, count := 0, chain := 0, abandoned := none }) := rfl

/-- The end of a recovery with a current anchor, or with damage: the gate opens, or stays closed. -/
theorem endRecovery_open (r : Recovery) (outcome : RestoreOutcome) (s : State) :
    let t := endRecovery r outcome openGate s
    t.gate = { s.gate with
      causes := s.examinedCauses, opState := if s.examinedCauses.any then .frozen else .running
      frz := s.examinedCauses.any, ready := true } ∧
    s.FlagsGain t (fun e => decide (e = .recovered) ||
      (s.examinedCauses.any && decide (e = .froze))) ∧
    t = { s with
      gate := t.gate
      engine := { s.engine with work := .idle, count := 0, chain := 0, abandoned := none }
      queue := { s.queue with discardedWrites := 0, discardedTokens := 0 }
      events := { s.events with flags := t.events.flags, attn := t.events.attn, pulse := t.events.pulse
                                restore := r.report outcome s } } := by
  intro t
  let x := s.reported r outcome
  have ended : t = raise .recovered ((openGate x).setEngine { (openGate x).engine with
    work := .idle, count := 0, chain := 0, abandoned := none }) := endRecovery_eq r outcome openGate s
  refine ⟨?_, fun e => ?_, ?_⟩
  · rw [ended]
    exact openGate_gate x
  · have gained : (openGate x).flagged e = (s.flagged e || (s.examinedCauses.any && decide (e = .froze))) :=
      openGate_flags x e
    have raised : t.flagged e = ((openGate x).flagged e || decide (e = .recovered)) := by
      rw [ended, raise_flagged]
      rfl
    rw [raised, gained, Bool.or_assoc, Bool.or_comm (_ && _)]
  · have opened := openGate_touches x
    have events : t.events = { s.events with
        flags := t.events.flags, attn := t.events.attn, pulse := t.events.pulse
        restore := r.report outcome s } := by
      have kept := congrArg State.events opened
      have raised := raise_touches .recovered ((openGate x).setEngine { (openGate x).engine with
        work := .idle, count := 0, chain := 0, abandoned := none })
      rw [← ended] at raised
      exact raised.trans (congrArg (fun v : Events => { v with
        flags := t.events.flags, attn := t.events.attn, pulse := t.events.pulse }) kept)
    have blocks := congrArg (fun g : State => { g with
      gate := t.gate, events := t.events
      engine := { g.engine with work := .idle, count := 0, chain := 0, abandoned := none } }) opened
    have rest := congrArg (fun v => { s with
      gate := t.gate
      engine := { s.engine with work := .idle, count := 0, chain := 0, abandoned := none }
      queue := { s.queue with discardedWrites := 0, discardedTokens := 0 }, events := v }) events
    have begun : t = { openGate x with
        gate := t.gate, events := t.events
        engine := { (openGate x).engine with
          work := .idle, count := 0, chain := 0, abandoned := none } } := by
      rw [ended]
      rfl
    exact begun.trans (blocks.trans rest)

theorem outcome_of_none {r : Recovery} (h : r.found = 0) : r.outcome = .clean := if_pos h

theorem outcome_of_found {r : Recovery} (h : r.found ≠ 0) (slot : Word) :
    (r.stop = some (slot, .sequence) → r.outcome = .rolledBack) ∧
    (r.stop = some (slot, .torn) → r.outcome = .rolledBackTorn) ∧
    (r.stop = some (slot, .windowEnd) → r.outcome = .rolledBackEnd) := by
  refine ⟨fun stop => ?_, fun stop => ?_, fun stop => ?_⟩ <;>
    simp only [Recovery.outcome, if_neg h, stop]

theorem tornFlag_iff (c0 c1 : AnchorClass) :
    tornFlag (some (c0, c1)) = true ↔ (c0 = .valid ↔ c1 ≠ .valid) := by
  by_cases h0 : c0 = .valid <;> by_cases h1 : c1 = .valid <;> simp [tornFlag, h0, h1]

/-- A recovery ends, when the table is settled in the region map, the causes and the events (R99, R138). -/
theorem endsRecovery_of_settled {s y : State} (r : Recovery) {active : Option Table} {rejected : Bool}
    {result : TableResult} (region : y.region = { s.region with active := active, result := result })
    (gate : y.gate = { s.gate with causes := { s.gate.causes with
      table := s.gate.causes.table || rejected } })
    (flags : s.FlagsGain y (fun e => rejected && decide (e = .tableError)))
    (rest : y = { s with region := y.region, gate := y.gate, events := { s.events with
      flags := y.events.flags, attn := y.events.attn, pulse := y.events.pulse } }) :
    s.EndsRecovery (endRecovery r r.outcome openGate y) r active rejected result := by
  obtain ⟨tgate, tflags, whole⟩ := endRecovery_open r r.outcome y
  have causes : y.examinedCauses = { s.gate.causes with
      table := s.gate.causes.table || rejected
      pfail := s.gate.causes.pfail || (s.settings.pfailEnabled && s.gate.pfail.active)
      fault := s.gate.causes.fault || (s.settings.faultEnabled && s.gate.fault.active) } := by
    have settings : y.settings = s.settings := by rw [rest]
    rw [State.examinedCauses, gate, settings]
  have engine : y.engine = s.engine := by rw [rest]
  have queue : y.queue = s.queue := by rw [rest]
  have same : r.report r.outcome y = r.report r.outcome s := by
    have time : y.time = s.time := by rw [rest]
    rw [Recovery.report, engine, queue, time]
    rfl
  generalize endRecovery r r.outcome openGate y = t at tgate tflags whole ⊢
  have tregion : t.region = y.region := by rw [whole]
  have tengine : t.engine = _ := congrArg State.engine whole
  have tqueue : t.queue = _ := congrArg State.queue whole
  have any : t.gate.causes.any = y.examinedCauses.any := by rw [tgate]
  have report : t.events.restore = r.report r.outcome y := by rw [whole]
  have outcome : t.events.restore.outcome = r.outcome := by rw [report]; rfl
  have torn : t.events.restore.tornAnchor = tornFlag r.classes := by rw [report]; rfl
  refine ⟨tregion.trans region, by rw [tengine, engine], by rw [tqueue, queue], ?_, fun e => ?_,
    fun none_ => ?_, fun slot some_ stop => ?_, fun slot some_ stop => ?_,
    fun slot some_ stop => ?_, fun c0 c1 classes => ?_, ?_, ?_⟩
  · rw [any, tgate, causes, gate]
  · have gained : y.flagged e = (s.flagged e || (rejected && decide (e = .tableError))) := flags e
    rw [tflags e, gained, any, Bool.or_assoc, Bool.or_comm (rejected && _)]
  · rw [outcome, outcome_of_none none_]
  · rw [outcome, (outcome_of_found some_ slot).1 stop]
  · rw [outcome, (outcome_of_found some_ slot).2.1 stop]
  · rw [outcome, (outcome_of_found some_ slot).2.2 stop]
  · rw [torn, classes, tornFlag_iff]
  · rw [report, same]
    rfl
  · have begun : t = { y with
        region := t.region, engine := t.engine, queue := t.queue, gate := t.gate
        events := { y.events with flags := t.events.flags, attn := t.events.attn
                                  pulse := t.events.pulse, restore := t.events.restore } } := by
      rw [report, tregion, tengine, tqueue]
      exact whole
    exact begun.trans (congrArg (fun g : State => { g with
      region := t.region, engine := t.engine, queue := t.queue, gate := t.gate
      events := { g.events with flags := t.events.flags, attn := t.events.attn
                                pulse := t.events.pulse, restore := t.events.restore } }) rest)

theorem rejectStartUpTable_ends (r : Recovery) (e : TableOutcome) (read index : Nat) (s : State) :
    s.EndsRecovery (rejectStartUpTable r e read index s) r s.region.active true
      { outcome := e, origin := .startUp, base := s.engine.durable.tableBase, read := read
        index := index, tick := s.time.tick } := by
  refine endsRecovery_of_settled (s := s) (y := addCause .table (raise .tableError
    (setTableResult e .startUp s.engine.durable.tableBase read index s))) r rfl ?_ ?_ ?_
  · rw [Bool.or_true]
    rfl
  · exact fun f => raise_flagged .tableError f
      (setTableResult e .startUp s.engine.durable.tableBase read index s)
  · have touched := raise_touches .tableError
      (setTableResult e .startUp s.engine.durable.tableBase read index s)
    exact congrArg (fun v => { s with
      region := (setTableResult e .startUp s.engine.durable.tableBase read index s).region
      gate := { s.gate with causes := s.gate.causes.add .table }, events := v }) touched

theorem acceptStartUpTable_ends (r : Recovery) (x : Table) (s : State) {read : Nat}
    (hread : x.descs.length = read) : s.EndsRecovery (acceptStartUpTable r x s) r (some x) false
      { outcome := .accepted, origin := .startUp, base := x.base, read := read, index := 0
        tick := s.time.tick } := by
  subst hread
  refine endsRecovery_of_settled (s := s) r rfl ?_ ?_ rfl
  · rw [Bool.or_false]
    rfl
  · exact fun f => (Bool.or_false _).symm

/-- With no table to load, recovery ends with an empty result (R99). -/
theorem noStartUpTable_ends (r : Recovery) (s : State) :
    s.EndsRecovery (endRecovery r r.outcome openGate (setTableResult .accepted .startUp 0 0 0 s)) r
      s.region.active false
      { outcome := .accepted, origin := .startUp, base := 0, read := 0, index := 0
        tick := s.time.tick } := by
  refine endsRecovery_of_settled (s := s) r rfl ?_ ?_ rfl
  · rw [Bool.or_false]
    rfl
  · exact fun f => (Bool.or_false _).symm

/-! ### The load of the table (R99) -/

/-- The load of the table begins, or is settled without a read. -/
theorem beginTableLoad_cases (s : State) (r : Recovery) (base : Long)
    (hbase : base = s.engine.durable.tableBase) :
    (s.engine.durable.tableCount = 0 →
      s.EndsRecovery (beginTableLoad r s) r s.region.active false
        { outcome := .accepted, origin := .startUp, base := 0, read := 0, index := 0
          tick := s.time.tick }) ∧
    (s.engine.durable.tableCount ≠ 0 →
      (base.toNat % 8 ≠ 0 → s.EndsRecovery (beginTableLoad r s) r s.region.active true
        { outcome := .align, origin := .startUp, base := base, read := 0, index := 0
          tick := s.time.tick }) ∧
      (base.toNat % 8 = 0 → s.top ≤ base.toNat →
        s.EndsRecovery (beginTableLoad r s) r s.region.active true
          { outcome := .range, origin := .startUp, base := base, read := 0, index := 0
            tick := s.time.tick }) ∧
      (base.toNat % 8 = 0 → base.toNat < s.top → beginTableLoad r s = { s with
        engine := { s.engine with work := .recovering { r with phase := .table [] [] } } })) := by
  subst hbase
  unfold beginTableLoad
  dsimp only
  refine ⟨fun empty => ?_, fun some_ => ⟨fun misaligned => ?_, fun aligned outside => ?_,
    fun aligned inside => ?_⟩⟩
  · rw [if_pos empty]
    exact noStartUpTable_ends r s
  · rw [if_neg some_, if_pos misaligned]
    exact rejectStartUpTable_ends r .align 0 0 s
  · rw [if_neg some_, if_neg (not_not.2 aligned), if_pos outside]
    exact rejectStartUpTable_ends r .range 0 0 s
  · rw [if_neg some_, if_neg (not_not.2 aligned), if_neg (not_le.2 inside)]
    rfl

/-- A start-up descriptor that passes: another is read, the table is rejected, or it becomes active. -/
theorem takeStartUpDescriptor_passed {s : State} {r : Recovery} {kept : List Descriptor} {ws : List Word}
    {base : Long} (hbase : base = s.engine.durable.tableBase) {d : Descriptor}
    (passed : s.checkDescriptor (base.toNat + 8 * kept.length) kept.getLast? ws = .inr d) :
    (kept.length + 1 < s.engine.durable.tableCount.toNat → d.flags.getLsbD 0 = false →
      takeStartUpDescriptor r kept ws s = setRec r (.table [] (kept ++ [d])) s) ∧
    (d.flags.getLsbD 0 = decide (kept.length + 1 < s.engine.durable.tableCount.toNat) →
      takeStartUpDescriptor r kept ws s =
        rejectStartUpTable r .noEnd (kept.length + 1) kept.length s) ∧
    (∀ e i, s.engine.durable.tableCount.toNat ≤ kept.length + 1 → d.flags.getLsbD 0 = true →
      s.checkWhole { base := base, descs := kept ++ [d] } false = some (e, i) →
      takeStartUpDescriptor r kept ws s = rejectStartUpTable r e (kept.length + 1) i s) ∧
    (s.engine.durable.tableCount.toNat ≤ kept.length + 1 → d.flags.getLsbD 0 = true →
      s.checkWhole { base := base, descs := kept ++ [d] } false = none →
      takeStartUpDescriptor r kept ws s =
        acceptStartUpTable r { base := base, descs := kept ++ [d] } s) := by
  subst hbase
  refine ⟨fun more open_ => ?_, fun wrong => ?_, fun e i last ends rejected => ?_,
    fun last ends passes => ?_⟩
  · simp only [takeStartUpDescriptor, passed, if_pos more, Descriptor.isEnd, open_, Bool.false_eq_true,
      if_false]
  · by_cases more : kept.length + 1 < s.engine.durable.tableCount.toNat
    · rw [decide_eq_true more] at wrong
      simp only [takeStartUpDescriptor, passed, if_pos more, Descriptor.isEnd, wrong, if_true]
    · rw [decide_eq_false more] at wrong
      simp only [takeStartUpDescriptor, passed, if_neg more, Descriptor.isEnd, wrong, if_true]
  · simp only [takeStartUpDescriptor, passed, if_neg (not_lt.2 last), Descriptor.isEnd, ends, rejected,
      Bool.true_eq_false, if_false]
  · simp only [takeStartUpDescriptor, passed, if_neg (not_lt.2 last), Descriptor.isEnd, ends, passes,
      Bool.true_eq_false, if_false]

/-! ### What the anchors decide (R14, R134) -/

theorem advanceEngine_recovery {s : State} {r : Recovery} (work : s.engine.work = .recovering r)
    (data : Word) : advanceEngine data s = advanceRecovery r data s := by
  simp only [advanceEngine, work]

/-- A read of recovery that completes goes on in the state with the port free. -/
theorem exec_recovery_read {s : State} {a : Access} {r : Recovery} {x : Word}
    (access : s.port.access = some (.engine, a)) (work : s.engine.work = .recovering r)
    (read : a.write = none) (hx : x = s.mem.word (a.addr % s.top)) :
    exec (.accessComplete none) s =
      .next (advanceRecovery r x (s.setPort { s.port with access := none })) := by
  have next := advanceEngine_recovery (s := s.setPort { s.port with access := none }) work x
  rw [accessComplete_engine_read s a access read, ← hx, next]

/-- The rows of R14 for each pair of classes. -/
theorem decideAnchors_rows (c0 c1 : AnchorClass) (a0 a1 : Anchor) :
    (c0 = .damaged ∨ c1 = .damaged → decideAnchors c0 c1 a0 a1 = .damage) ∧
    (c0 = .valid → c1 = .valid → decideAnchors c0 c1 a0 a1 =
      if a0.formatCount = a1.formatCount ∧ a0.group.toNat = a1.group.toNat + 1 then .current 0 a0
      else if a0.formatCount = a1.formatCount ∧ a1.group.toNat = a0.group.toNat + 1 then
        .current 1 a1
      else .damage) ∧
    (c0 = .valid → c1 = .empty ∨ c1 = .torn → decideAnchors c0 c1 a0 a1 = .current 0 a0) ∧
    (c0 = .empty ∨ c0 = .torn → c1 = .valid → decideAnchors c0 c1 a0 a1 = .current 1 a1) ∧
    (c0 = .empty ∨ c0 = .torn → c1 = .empty ∨ c1 = .torn →
      decideAnchors c0 c1 a0 a1 = .unformatted) := by
  refine ⟨?_, ?_, ?_, ?_, ?_⟩
  · rintro (rfl | rfl)
    · exact decideAnchors_damaged_left c1 a0 a1
    · exact decideAnchors_damaged_right c0 a0 a1
  · rintro rfl rfl
    by_cases counts : a0.formatCount = a1.formatCount <;> simp [decideAnchors, counts]
  · rintro rfl (rfl | rfl) <;> rfl
  · rintro (rfl | rfl) rfl <;> rfl
  · rintro (rfl | rfl) (rfl | rfl) <;> rfl

/-- Recovery with no current anchor to find ends UNFORMATTED (R138). -/
theorem endRecovery_unformatted_spec (r : Recovery) (s : State) :
    let t := endRecovery r .unformatted (setOpState .unformatted) s
    t.gate = { s.gate with opState := .unformatted, frz := false, ready := true } ∧
    t.engine = { s.engine with work := .idle, count := 0, chain := 0, abandoned := none } ∧
    t.events.restore = r.report .unformatted s ∧ s.FlagsGain t (fun e => decide (e = .recovered)) ∧
    t.mem = s.mem ∧ t.intake = s.intake ∧ t.region = s.region := by
  intro t
  have ended : t = _ := endRecovery_eq r .unformatted (setOpState .unformatted) s
  refine ⟨rfl, rfl, ?_, fun e => ?_, rfl, rfl, rfl⟩
  · exact (Events.raise_rest _ _ _).2.2
  · rw [ended, raise_flagged]
    rfl

/-- Recovery that finds damage ends FROZEN with cause ANCHOR (R138). -/
theorem endRecovery_damage_spec (r : Recovery) (s : State) :
    let t := endRecovery r .anchorDamage openGate (addCause .anchor s)
    (t.gate.opState = .frozen ∧ t.gate.frz = true ∧ t.gate.ready = true ∧ t.gate.causes.anchor = true ∧
      t.gate.level = s.gate.level ∧ t.gate.order = s.gate.order) ∧
    t.engine = { s.engine with work := .idle, count := 0, chain := 0, abandoned := none } ∧
    t.events.restore = r.report .anchorDamage s ∧
    s.FlagsGain t (fun e => decide (e = .recovered) || decide (e = .froze)) ∧
    t.mem = s.mem ∧ t.intake = s.intake ∧ t.region = s.region := by
  obtain ⟨gate, flags, whole⟩ := endRecovery_open r .anchorDamage (addCause .anchor s)
  have any : (addCause .anchor s).examinedCauses.any = true := by
    simp [State.examinedCauses, addCause, CauseSet.add, CauseSet.any]
  rw [any] at gate
  intro t
  refine ⟨by rw [gate]; exact ⟨rfl, rfl, rfl, rfl, rfl, rfl⟩, congrArg State.engine whole, ?_,
    fun e => ?_, ?_, ?_, ?_⟩
  · rw [congrArg State.events whole]
    rfl
  · rw [flags e, any]
    rfl
  · rw [congrArg State.mem whole]
    rfl
  · rw [congrArg State.intake whole]
    rfl
  · rw [congrArg State.region whole]
    rfl

/-- What recovery does with both anchors read. -/
theorem decideRecovery_cases {s : State} {r : Recovery} {ws0 ws1 : List Word} {c0 c1 : AnchorClass}
    {st : AnchorState} (hc0 : c0 = classifyAnchor s.straps.msize (s.anchorAddr 0) 0 ws0)
    (hc1 : c1 = classifyAnchor s.straps.msize (s.anchorAddr 0) 1 ws1)
    (hst : st = decideAnchors c0 c1 (anchorOf ws0) (anchorOf ws1)) :
    (st = .unformatted → decideRecovery r ws0 ws1 s =
      endRecovery { r with classes := some (c0, c1) } .unformatted (setOpState .unformatted) s) ∧
    (st = .damage → decideRecovery r ws0 ws1 s =
      endRecovery { r with classes := some (c0, c1) } .anchorDamage openGate (addCause .anchor s)) ∧
    (∀ i n, st = .current i n →
      (n.group ≠ 0xFFFFFFFE#32 → decideRecovery r ws0 ws1 s = { s with
        intake := { s.intake with group := n.group + 1 }
        engine := { s.engine with
          closed := n.group, durable := n.durable
          work := .recovering { r with classes := some (c0, c1), current := some i
                                       examined := some (n.group + 1), phase := .scan 0 0 [] } } }) ∧
      (n.group = 0xFFFFFFFE#32 → decideRecovery r ws0 ws1 s = beginTableLoad
        { r with classes := some (c0, c1), current := some i, examined := some (n.group + 1) }
        { s with
          intake := { s.intake with group := 0xFFFFFFFF#32 }
          gate := { s.gate with causes := { s.gate.causes with exhausted := true } }
          engine := { s.engine with closed := n.group, durable := n.durable } })) := by
  subst hc0 hc1
  have last : Config.lastGroup = 0xFFFFFFFE#32 := rfl
  refine ⟨fun blank => ?_, fun damage => ?_, fun i n current => ⟨fun other => ?_, fun exhausted => ?_⟩⟩
  · simp only [decideRecovery, ← hst, blank]
  · simp only [decideRecovery, ← hst, damage]
  · have quiet : ∀ x : State, x.engine.closed = n.group → recoverExhausted x = x := fun x closed =>
      if_neg (by rw [closed]; exact other)
    simp only [decideRecovery, ← hst, current]
    rw [if_neg (by exact other), quiet _ rfl]
    rfl
  · have full : ∀ x : State, x.engine.closed = n.group →
        recoverExhausted x = addCause .exhausted x := fun x closed =>
      if_pos (by rw [closed]; exact exhausted)
    simp only [decideRecovery, ← hst, current]
    rw [if_pos (by exact exhausted), full _ rfl]
    have next : n.group + 1 = 0xFFFFFFFF#32 := by rw [exhausted]; rfl
    rw [← next]
    rfl

/-- Settles O41: what the anchors decide, and the load of the table. -/
theorem recoveryDecides : Obligations.RecoveryDecides := by
  refine ⟨decideAnchors_rows, ?_, beginTableLoad_cases, ?_⟩
  · intro s a r got ws x c0 c1 st access work phase read hx hws hc0 hc1 hst
    have next := exec_recovery_read access work read hx
    have whole : got.length = 31 → exec (.accessComplete none) s =
        .next (decideRecovery r (ws.take 16) (ws.drop 16) (s.setPort { s.port with access := none })) := by
      intro full
      have : ¬ (got ++ [x]).length < 32 := by simp; omega
      rw [next, hws]
      simp only [advanceRecovery, phase, if_neg this]
    have decided := decideRecovery_cases (s := s.setPort { s.port with access := none }) (r := r)
      hc0 hc1 hst
    refine ⟨by simp only [State.engineAccess, work, phase]; rfl, fun short => ?_, fun full blank => ?_,
      fun full damage => ?_, fun i n found full current hfound => ?_⟩
    · have : (got ++ [x]).length < 32 := by simp; omega
      rw [next, hws]
      simp only [advanceRecovery, phase, if_pos this]
      rfl
    · obtain ⟨gate, engine, report, flags, rest⟩ := endRecovery_unformatted_spec
        { r with classes := some (c0, c1) } (s.setPort { s.port with access := none })
      exact ⟨_, (whole full).trans (congrArg _ (decided.1 blank)), gate, engine,
        congrArg RestoreReport.outcome report, congrArg RestoreReport.classes report, flags, rest⟩
    · obtain ⟨⟨frozen, frz, ready, anchor, level, order⟩, engine, report, flags, rest⟩ :=
        endRecovery_damage_spec { r with classes := some (c0, c1) }
          (s.setPort { s.port with access := none })
      exact ⟨_, (whole full).trans (congrArg _ (decided.2.1 damage)), frozen, frz, ready, anchor, level,
        order, engine, congrArg RestoreReport.outcome report, congrArg RestoreReport.classes report,
        flags, rest⟩
    · subst hfound
      obtain ⟨scans, loads⟩ := decided.2.2 i n current
      exact ⟨fun other => (whole full).trans (congrArg _ (scans other)),
        fun exhausted => (whole full).trans (congrArg _ (loads exhausted))⟩
  · intro s free a r got kept x base access work phase read hx hbase hfree
    subst hfree
    have next := exec_recovery_read access work read hx
    have whole : got.length = 7 → exec (.accessComplete none) s =
        .next (takeStartUpDescriptor r kept (got ++ [x]) (s.setPort { s.port with access := none })) := by
      intro full
      have : ¬ (got ++ [x]).length < 8 := by simp; omega
      rw [next]
      simp only [advanceRecovery, phase, if_neg this]
    refine ⟨by simp only [State.engineAccess, work, phase, hbase], fun short => ?_,
      fun e full rejected => ?_, fun d full passed => ?_⟩
    · have : (got ++ [x]).length < 8 := by simp; omega
      rw [next]
      simp only [advanceRecovery, phase, if_pos this]
      rfl
    · have taken : takeStartUpDescriptor r kept (got ++ [x]) (s.setPort { s.port with access := none }) =
          rejectStartUpTable r e (kept.length + 1) kept.length
            (s.setPort { s.port with access := none }) := by
        subst hbase
        have rejected' : (s.setPort { s.port with access := none }).checkDescriptor
          (s.engine.durable.tableBase.toNat + 8 * kept.length) kept.getLast? (got ++ [x]) = .inl e := rejected
        simp only [takeStartUpDescriptor, State.setPort_engine, rejected']
      subst hbase
      exact ⟨_, (whole full).trans (congrArg _ taken), rejectStartUpTable_ends _ _ _ _ _⟩
    · obtain ⟨more, wrong, rejects, accepts⟩ := takeStartUpDescriptor_passed
        (s := s.setPort { s.port with access := none }) (r := r) hbase passed
      subst hbase
      refine ⟨fun further open_ => (whole full).trans (congrArg _ (more further open_)),
        fun ends => ⟨_, (whole full).trans (congrArg _ (wrong ends)), rejectStartUpTable_ends _ _ _ _ _⟩,
        fun e i last ends fails => ⟨_, (whole full).trans (congrArg _ (rejects e i last ends fails)),
          rejectStartUpTable_ends _ _ _ _ _⟩,
        fun last ends passes => ⟨_, (whole full).trans (congrArg _ (accepts last ends passes)),
          acceptStartUpTable_ends _ _ _ (by simp)⟩⟩

end Sys2Proof.Machine
end

section
/-! PROOFS. Start-up recovery: the scan of the window, the restores, and the VOIDED anchor. -/

namespace Sys2Proof.Machine

/-! ### The class of a slot (R20) -/

theorem lineLegal_iff (line : Long) (anchor0 : Nat) :
    lineLegal line anchor0 = true ↔ line.toNat % 8 = 0 ∧ line.toNat < anchor0 := by
  simp [lineLegal]

theorem classifySlot_eq (g : GroupNo) (j : Nat) (chain : Word) (anchor0 : Nat) (ws : List Word)
    (line : Long) (hline : line = joinWords (ws.getD 4 0) (ws.getD 5 0)) :
    classifySlot g j chain anchor0 ws =
      if ws.getD 0 0 = 0x5A31#16 ∧ joinWords (ws.getD 1 0) (ws.getD 2 0) = g then
        if wordSum ws = 0xFFFF#16 ∧ (ws.getD 3 0).toNat = j ∧ ws.getD 14 0 = chain ∧
          line.toNat % 8 = 0 ∧ line.toNat < anchor0 then .belongs else .torn
      else if ∀ w ∈ ws, w = 0 then .empty else .foreign := by
  subst hline
  simp only [classifySlot, checkOk_iff, allZero_iff, lineLegal_iff]
  rfl

theorem slotStill_iff (g : GroupNo) (j : Nat) (ws : List Word) : slotStill g j ws = true ↔
    wordSum ws = 0xFFFF#16 ∧ joinWords (ws.getD 1 0) (ws.getD 2 0) = g ∧ (ws.getD 3 0).toNat = j := by
  simp only [slotStill, Bool.and_eq_true, checkOk_iff, decide_eq_true_eq, and_assoc]
  rfl

/-! ### The steps of the scan and of the restores (R135 to R137) -/

/-- A scan that stops at slot j: the newest record found is read again, or the table is loaded. -/
theorem endScan_cases (r : Recovery) (j : Nat) (why : StopReason) (s : State) :
    (0 < j → endScan r j why s = { s with engine := { s.engine with work := .recovering { r with
      found := BitVec.ofNat 16 j, stop := some (BitVec.ofNat 16 j, why), phase := .reread (j - 1) [] } } }) ∧
    (j = 0 → endScan r j why s = beginTableLoad { r with found := 0, stop := some (0, why) } s) := by
  cases j with
  | zero => exact ⟨fun h => absurd h (Nat.lt_irrefl 0), fun _ => rfl⟩
  | succ j => exact ⟨fun _ => rfl, fun h => absurd h (Nat.succ_ne_zero j)⟩

theorem nextRestore_eq (r : Recovery) (j : Nat) (s : State) : nextRestore r j s = { s with
    engine := { s.engine with work := .recovering { r with
      phase := if j = 0 then .void {
            base := s.anchorAddr ((s.engine.closed + 1).toNat % 2)
            words := (s.voidedAnchor (s.engine.closed + 1) r.found).words, phase := .writing 0 }
        else .reread (j - 1) [] } } } := by
  cases j <;> rfl

/-- A raised event and a count touch the flags, ATTN, the pulse and the counter only. -/
theorem count_raise_events (x : Counter) (e : Event) (s : State) :
    (count x (raise e s)).events = { s.events with
      flags := (count x (raise e s)).events.flags, attn := (count x (raise e s)).events.attn
      pulse := (count x (raise e s)).events.pulse, counters := s.events.counters.inc x } := by
  have touched := congrArg (fun v : Events => { v with counters := v.counters.inc x }) (raise_touches e s)
  exact touched

/-- Recovery adds cause EXHAUSTED when C is the last group (R5, R137). -/
theorem recoverExhausted_eq (s : State) : recoverExhausted s =
    s.setGate { s.gate with causes := if s.engine.closed = 0xFFFFFFFE#32 then
      { s.gate.causes with exhausted := true } else s.gate.causes } := by
  have last : Config.lastGroup = 0xFFFFFFFE#32 := rfl
  unfold recoverExhausted
  rw [last]
  split <;> rfl

/-- The group that recovery has voided is closed, and Intake begins the next (R137). -/
theorem recoveryVoided_parts (r : Recovery) (s : State) : ∃ u, recoveryVoided r s = beginTableLoad r u ∧
    u.engine = { s.engine with closed := s.engine.closed + 1, count := 0, chain := 0 } ∧
    u.intake = { s.intake with group := s.engine.closed + 1 + 1 } ∧
    u.gate = { s.gate with causes := if s.engine.closed + 1 = 0xFFFFFFFE#32 then
      { s.gate.causes with exhausted := true } else s.gate.causes } ∧
    s.FlagsGain u (fun e => decide (e = .voided)) ∧
    u.events.counters =
      { s.events.counters with voidedGroups := satInc s.events.counters.voidedGroups } ∧
    u = { s with engine := u.engine, intake := u.intake, gate := u.gate
                 events := { s.events with flags := u.events.flags, attn := u.events.attn
                                           pulse := u.events.pulse
                                           counters := u.events.counters } } := by
  let x := setGroup (closeGroup s.openGroup s).openGroup (closeGroup s.openGroup s)
  let v := count .voidedGroups (raise .voided x)
  have exhausted := recoverExhausted_eq v
  refine ⟨recoverExhausted v, rfl, ?_⟩
  rw [exhausted]
  have events : v.events = { s.events with
      flags := v.events.flags, attn := v.events.attn, pulse := v.events.pulse
      counters := s.events.counters.inc .voidedGroups } := count_raise_events .voidedGroups .voided x
  refine ⟨rfl, rfl, rfl, fun e => ?_, congrArg Events.counters events, ?_⟩
  · have gained : v.flagged e = (x.flagged e || decide (e = .voided)) := by
      rw [count_flagged, raise_flagged]
    exact gained
  · have counters : v.events.counters = s.events.counters.inc .voidedGroups := congrArg Events.counters events
    have kept : v.events = { s.events with
        flags := v.events.flags, attn := v.events.attn, pulse := v.events.pulse
        counters := v.events.counters } := by
      rw [counters]
      exact events
    exact congrArg (fun w => { s with
      engine := v.engine, intake := v.intake, events := w
      gate := { s.gate with causes := if v.engine.closed = 0xFFFFFFFE#32 then
        { v.gate.causes with exhausted := true } else v.gate.causes } }) kept

/-- Settles O42: the scan, the restores, and the VOIDED anchor of recovery. -/
theorem recoveryScan : Obligations.RecoveryScan := by
  refine ⟨classifySlot_eq, ?_⟩
  intro s free a r access work hfree
  subst hfree
  have completed : ∀ answer, exec (.accessComplete answer) s = .next (advanceRecovery r
      (s.readAnswer a answer) ((s.setMem (s.memAfter a answer)).setPort
        { s.port with access := none })) := by
    intro answer
    have next := advanceEngine_recovery (s := (s.setMem (s.memAfter a answer)).setPort
      { s.port with access := none }) work (s.readAnswer a answer)
    rw [accessComplete_engine s a answer access, next]
  refine ⟨fun j chain x got ws phase read hx hws => ?_, fun j x got ws phase read hx hws => ?_,
    fun j b d answer phase ended => ?_, fun b d answer phase ended => ?_⟩
  · have next := exec_recovery_read access work read hx
    have whole : got.length = 15 → exec (.accessComplete none) s =
        .next (scanSlot r j chain ws (s.setPort { s.port with access := none })) := by
      intro full
      have : ¬ (got ++ [x]).length < 16 := by simp; omega
      rw [next, hws]
      simp only [advanceRecovery, phase, if_neg this]
    refine ⟨by simp only [State.engineAccess, work, phase]; rfl, fun short => ?_,
      fun full belongs => ⟨fun more => ?_, fun last => ?_⟩, fun c why full cls reason => ?_⟩
    · have : (got ++ [x]).length < 16 := by simp; omega
      rw [next, hws]
      simp only [advanceRecovery, phase, if_pos this]
      rfl
    · have cls : classifySlot (s.setPort { s.port with access := none }).openGroup j chain
        ((s.setPort { s.port with access := none }).anchorAddr 0) ws = .belongs := belongs
      rw [whole full]
      simp only [scanSlot, cls]
      rw [if_pos (by exact more)]
      rfl
    · have cls : classifySlot (s.setPort { s.port with access := none }).openGroup j chain
        ((s.setPort { s.port with access := none }).anchorAddr 0) ws = .belongs := belongs
      rw [whole full]
      simp only [scanSlot, cls]
      rw [if_neg (by exact not_lt.2 last)]
      rfl
    · have stopped : scanSlot r j chain ws (s.setPort { s.port with access := none }) =
          endScan r j why (s.setPort { s.port with access := none }) := by
        have cls' : classifySlot (s.setPort { s.port with access := none }).openGroup j chain
          ((s.setPort { s.port with access := none }).anchorAddr 0) ws = c := cls
        obtain ⟨rfl, rfl⟩ | ⟨rfl | rfl, rfl⟩ := reason <;> simp only [scanSlot, cls']
      obtain ⟨some_, none_⟩ := endScan_cases r j why (s.setPort { s.port with access := none })
      rw [whole full, stopped]
      exact ⟨fun h => congrArg _ (some_ h), fun h => congrArg _ (none_ h)⟩
  · have next := exec_recovery_read access work read hx
    have whole : got.length = 15 → exec (.accessComplete none) s =
        .next (restoreSlot r j ws (s.setPort { s.port with access := none })) := by
      intro full
      have : ¬ (got ++ [x]).length < 16 := by simp; omega
      rw [next, hws]
      simp only [advanceRecovery, phase, if_neg this]
    refine ⟨by simp only [State.engineAccess, work, phase]; rfl, fun short => ?_,
      fun full => ⟨fun still => ?_, fun other => ?_⟩⟩
    · have : (got ++ [x]).length < 16 := by simp; omega
      rw [next, hws]
      simp only [advanceRecovery, phase, if_pos this]
      rfl
    · have test := (slotStill_iff (s.setPort { s.port with access := none }).openGroup j ws).2 still
      rw [whole full, restoreSlot, if_pos test]
      rfl
    · have test := mt (slotStill_iff (s.setPort { s.port with access := none }).openGroup j ws).1 other
      rw [whole full, restoreSlot, if_neg test, nextRestore_eq]
      rfl
  · rw [completed]
    simp only [advanceRecovery, phase, ended, nextRestore_eq]
    rfl
  · obtain ⟨u, voided, engine, intake, gate, flags, counters, rest⟩ := recoveryVoided_parts r
      ((s.setMem (s.memAfter a answer)).setPort { s.port with access := none })
    refine ⟨u, ?_, engine, intake, gate, flags, counters, rest⟩
    rw [completed]
    simp only [advanceRecovery, phase, ended, voided]

end Sys2Proof.Machine
end

section
/-! PROOFS. Format, and the durable structures. -/

namespace Sys2Proof.Machine

/-! ### The format count and the position cleared first (R10, R13, R156) -/

/-- Only a position that reads EMPTY or TORN leaves the memory UNFORMATTED. -/
theorem not_intact_of_unformatted {m : BitVec 2} {anchor0 : Nat} {ws0 ws1 : List Word} {a0 a1 : Anchor}
    (h : decideAnchors (classifyAnchor m anchor0 0 ws0) (classifyAnchor m anchor0 1 ws1) a0 a1 =
      .unformatted) : anchorIntact ws0 = false ∧ anchorIntact ws1 = false := by
  constructor
  · by_contra intact
    obtain c0 | c0 := classifyAnchor_damaged_or_valid (Bool.not_eq_false _ ▸ intact) m anchor0 0
    · simp [c0] at h
    · rw [c0] at h
      cases c1 : classifyAnchor m anchor0 1 ws1 <;> simp only [c1, decideAnchors] at h
      · split_ifs at h
      all_goals cases h
  · by_contra intact
    obtain c1 | c1 := classifyAnchor_damaged_or_valid (Bool.not_eq_false _ ▸ intact) m anchor0 1
    · simp [c1] at h
    · rw [c1] at h
      cases c0 : classifyAnchor m anchor0 0 ws0 <;> simp only [c0, decideAnchors] at h
      · split_ifs at h
      all_goals cases h

/-- The count behind damage: one past the greater of the counts that can be read. -/
theorem nextFormatCount_damage (ws0 ws1 : List Word) :
    (anchorIntact ws0 = true → anchorIntact ws1 = true →
      ((anchorOf ws1).formatCount.toNat ≤ (anchorOf ws0).formatCount.toNat →
        nextFormatCount .damage ws0 ws1 = (anchorOf ws0).formatCount + 1) ∧
      ((anchorOf ws0).formatCount.toNat ≤ (anchorOf ws1).formatCount.toNat →
        nextFormatCount .damage ws0 ws1 = (anchorOf ws1).formatCount + 1)) ∧
    (anchorIntact ws0 = true → anchorIntact ws1 = false →
      nextFormatCount .damage ws0 ws1 = (anchorOf ws0).formatCount + 1) ∧
    (anchorIntact ws0 = false → anchorIntact ws1 = true →
      nextFormatCount .damage ws0 ws1 = (anchorOf ws1).formatCount + 1) ∧
    (anchorIntact ws0 = false → anchorIntact ws1 = false → nextFormatCount .damage ws0 ws1 = 1) := by
  refine ⟨fun h0 h1 => ⟨fun less => ?_, fun more => ?_⟩, fun h0 h1 => ?_, fun h0 h1 => ?_, fun h0 h1 => ?_⟩
  · simp only [nextFormatCount, h0, h1]
    rw [if_neg (by rw [BitVec.lt_def]; omega)]
  · simp only [nextFormatCount, h0, h1]
    split
    · rfl
    · have same : (anchorOf ws0).formatCount = (anchorOf ws1).formatCount := by bv_omega
      rw [same]
  · simp only [nextFormatCount, h0, h1]
  · simp only [nextFormatCount, h0, h1]
  · simp only [nextFormatCount, h0, h1]

theorem firstCleared_current (i : Nat) (n : Anchor) :
    firstCleared (.current i n) = if i = 0 then 1 else 0 := by
  cases i <;> rfl

/-! ### The steps of Format (R156, R158, R159) -/

theorem advanceEngine_format {s : State} {f : Format} (work : s.engine.work = .formatting f)
    (data : Word) : advanceEngine data s = advanceFormat f data s := by
  simp only [advanceEngine, work]

/-- Format ends with the new window, and the gate opens or the part freezes (R158). -/
theorem endFormat_spec (f : Format) (s : State) :
    let t := endFormat f s
    t.engine = { work := .idle, closed := 0, count := 0, chain := 0
                 durable := { windowBase := f.base, slotCount := f.slots, tableBase := 0
                              tableCount := 0, formatCount := f.formatCount }
                 abandoned := s.engine.abandoned } ∧
    t.intake = { s.intake with group := 1 } ∧
    t.gate = { s.gate with
      causes := s.examinedCauses, opState := if s.examinedCauses.any then .frozen else .running
      frz := s.examinedCauses.any, ready := true } ∧
    s.FlagsGain t (fun e => decide (e = .formatted) ||
      (s.examinedCauses.any && decide (e = .froze))) ∧
    t.mem = s.mem ∧ t.queue = s.queue ∧ t.region = s.region := by
  intro t
  let x := setGroup 1 ((closeGroup 0 s).setEngine { (closeGroup 0 s).engine with durable :=
    { windowBase := f.base, slotCount := f.slots, tableBase := 0, tableCount := 0
      formatCount := f.formatCount } })
  have ended : t = raise .formatted (setWork .idle (openGate x)) := rfl
  have opened := openGate_touches x
  have mem := congrArg State.mem opened
  have queue := congrArg State.queue opened
  have region := congrArg State.region opened
  refine ⟨congrArg (fun g : State => { g.engine with work := .idle }) opened,
    congrArg State.intake opened, openGate_gate x, fun e => ?_, mem, queue, region⟩
  have gained : (openGate x).flagged e = (s.flagged e || (s.examinedCauses.any && decide (e = .froze))) :=
    openGate_flags x e
  have raised : t.flagged e = ((openGate x).flagged e || decide (e = .formatted)) := by
    rw [ended, raise_flagged]
    rfl
  rw [raised, gained, Bool.or_assoc, Bool.or_comm (_ && _)]

/-- Settles O43: the steps of Format, and its two ends. -/
theorem formatEnds : Obligations.FormatEnds := by
  intro s a answer f b access work
  have completed : ∀ answer, exec (.accessComplete answer) s = .next (advanceFormat f
      (s.readAnswer a answer) ((s.setMem (s.memAfter a answer)).setPort
        { s.port with access := none })) := by
    intro answer
    have next := advanceEngine_format (s := (s.setMem (s.memAfter a answer)).setPort
      { s.port with access := none }) work (s.readAnswer a answer)
    rw [accessComplete_engine s a answer access, next]
  refine ⟨?_, fun first n phase => ⟨?_, ?_⟩, fun n phase => ⟨?_, ?_⟩, fun phase ended => ?_,
    fun phase ended => ?_, fun d phase ended => ?_⟩
  · intro got ws ws0 ws1 x st intact0 intact1 phase read hx hws hws0 hws1 h0 h1 hst
    have answer0 : s.readAnswer a none = x := hx.symm
    have next : exec (.accessComplete none) s =
        .next (advanceFormat f x (s.setPort { s.port with access := none })) := by
      rw [completed, answer0, memAfter_read s a read]
      rfl
    refine ⟨by simp only [State.engineAccess, work, phase]; rfl, fun short => ?_, fun full => ?_⟩
    · have : (got ++ [x]).length < 32 := by simp; omega
      rw [next, hws]
      simp only [advanceFormat, phase, if_pos this]
      rfl
    · have : ¬ (got ++ [x]).length < 32 := by simp; omega
      have decided : exec (.accessComplete none) s = .next (setFormat
          { f with formatCount := nextFormatCount st ws0 ws1 } (.clearAnchors (firstCleared st) 0)
          (s.setPort { s.port with access := none })) := by
        rw [next, hst, hws0, hws1, hws]
        simp only [advanceFormat, phase, if_neg this]
        rfl
      refine ⟨nextFormatCount st ws0 ws1, firstCleared st, decided, fun i n current => ?_, fun other => ?_⟩
      · rw [current, firstCleared_current]
        exact ⟨rfl, rfl⟩
      · rw [← anchorIntact_iff] at h0 h1
        cases st with
        | current i n => exact absurd rfl (other i n)
        | unformatted =>
          obtain ⟨blank0, blank1⟩ := not_intact_of_unformatted hst.symm
          simp only [blank0, blank1, Bool.false_eq_true, iff_false] at h0 h1
          exact ⟨rfl, fun i0 => absurd i0 h0, fun i0 => absurd i0 h0, fun i0 => absurd i0 h0,
            fun _ i1 => absurd i1 h1, fun _ _ => rfl⟩
        | damage =>
          obtain ⟨both, left, right, none_⟩ := nextFormatCount_damage ws0 ws1
          have broken0 : ¬ intact0 → anchorIntact ws0 = false := fun h => Bool.eq_false_iff.2 (mt h0.2 h)
          have broken1 : ¬ intact1 → anchorIntact ws1 = false := fun h => Bool.eq_false_iff.2 (mt h1.2 h)
          exact ⟨rfl, fun i0 i1 => (both (h0.1 i0) (h1.1 i1)).1, fun i0 i1 => (both (h0.1 i0) (h1.1 i1)).2,
            fun i0 i1 => left (h0.1 i0) (broken1 i1), fun i0 i1 => right (broken0 i0) (h1.1 i1),
            fun i0 i1 => none_ (broken0 i0) (broken1 i1)⟩
  · simp only [State.engineAccess, work, phase]
    rfl
  · rw [completed]
    simp only [advanceFormat, phase]
    by_cases more : n < 31
    · rw [if_pos (by omega), if_pos more]
      rfl
    · rw [if_neg (by omega), if_neg more]
      rfl
  · simp only [State.engineAccess, work, phase]
  · rw [completed]
    simp only [advanceFormat, phase]
    by_cases more : n + 1 < 16 * f.slots.toNat
    · rw [if_pos more, if_pos more]
      rfl
    · rw [if_neg more, if_neg more]
      rfl
  · have ends : b.advance ((s.setMem (s.memAfter a answer)).setPort
      { s.port with access := none }).settings.verify (s.readAnswer a answer) = .ended false := ended
    obtain ⟨engine, intake, gate, flags, mem, queue, region⟩ := endFormat_spec f
      ((s.setMem (s.memAfter a answer)).setPort { s.port with access := none })
    refine ⟨_, (completed answer).trans ?_, engine, intake, ?_⟩
    · simp only [advanceFormat, phase, ends]
    · rw [gate]
      exact ⟨rfl, rfl, rfl, rfl, rfl, flags, mem, queue, region⟩
  · have ends : b.advance ((s.setMem (s.memAfter a answer)).setPort
      { s.port with access := none }).settings.verify (s.readAnswer a answer) = .ended true := ended
    rw [completed]
    simp only [advanceFormat, phase, ends]
    rfl
  · rw [completed]
    simp only [advanceFormat, phase, ended]
    rfl

/-! ### Durable structures (R6, R9, R10, R16) -/

theorem anchorOf_words (a : Anchor) : anchorOf a.words = a := by
  have fields : anchorOf a.words = { a with
      group := joinWords (upperWord a.group) (lowerWord a.group)
      windowBase := joinWords (upperWord a.windowBase) (lowerWord a.windowBase)
      tableBase := joinWords (upperWord a.tableBase) (lowerWord a.tableBase)
      formatCount := joinWords (upperWord a.formatCount) (lowerWord a.formatCount) } := rfl
  simp only [fields, joinWords_split]

theorem exists_of_length_eight {image : List Word} (h : image.length = 8) :
    ∃ i0 i1 i2 i3 i4 i5 i6 i7, image = [i0, i1, i2, i3, i4, i5, i6, i7] :=
  match image, h with
  | [i0, i1, i2, i3, i4, i5, i6, i7], _ => ⟨i0, i1, i2, i3, i4, i5, i6, i7, rfl⟩

/-- A record reads back what was written, and belongs where it was written for (R16, R20). -/
theorem recordWords_reads (g : GroupNo) (k c : Word) (l : Long) {image : List Word} (h : image.length = 8) :
    (recordWords g k l image c).length = 16 ∧ wordSum (recordWords g k l image c) = 0xFFFF#16 ∧
    (recordWords g k l image c).take 15 = [0x5A31#16, g.extractLsb' 16 16, g.extractLsb' 0 16, k,
      l.extractLsb' 16 16, l.extractLsb' 0 16] ++ image ++ [c] ∧
    (recordWords g k l image c).getD 15 0 = checkWord ((recordWords g k l image c).take 15) ∧
    recordGroup (recordWords g k l image c) = g ∧ recordLine (recordWords g k l image c) = l ∧
    recordImage (recordWords g k l image c) = image ∧ recordChain (recordWords g k l image c) = c ∧
    (∀ anchor0, l.toNat % 8 = 0 → l.toNat < anchor0 →
      classifySlot g k.toNat c anchor0 (recordWords g k l image c) = .belongs) := by
  have sum : wordSum (recordWords g k l image c) = 0xFFFF#16 := checkWord_sum _
  obtain ⟨i0, i1, i2, i3, i4, i5, i6, i7, rfl⟩ := exists_of_length_eight h
  have words : (recordWords g k l [i0, i1, i2, i3, i4, i5, i6, i7] c).take 15 =
    [0x5A31#16, upperWord g, lowerWord g, k, upperWord l, lowerWord l, i0, i1, i2, i3, i4, i5, i6, i7,
      c] := rfl
  refine ⟨rfl, sum, words, by rw [words]; rfl, joinWords_split g, joinWords_split l, rfl, rfl,
    fun anchor0 aligned below => ?_⟩
  have line : l = joinWords ((recordWords g k l [i0, i1, i2, i3, i4, i5, i6, i7] c).getD 4 0)
    ((recordWords g k l [i0, i1, i2, i3, i4, i5, i6, i7] c).getD 5 0) := (joinWords_split l).symm
  have kind : (recordWords g k l [i0, i1, i2, i3, i4, i5, i6, i7] c).getD 0 0 = 0x5A31#16 := rfl
  have group : joinWords ((recordWords g k l [i0, i1, i2, i3, i4, i5, i6, i7] c).getD 1 0)
    ((recordWords g k l [i0, i1, i2, i3, i4, i5, i6, i7] c).getD 2 0) = g := joinWords_split g
  have ordinal : (recordWords g k l [i0, i1, i2, i3, i4, i5, i6, i7] c).getD 3 0 = k := rfl
  have chain : (recordWords g k l [i0, i1, i2, i3, i4, i5, i6, i7] c).getD 14 0 = c := rfl
  generalize recordWords g k l [i0, i1, i2, i3, i4, i5, i6, i7] c = ws at *
  rw [classifySlot_eq g k.toNat c anchor0 ws l line, if_pos ⟨kind, group⟩,
    if_pos ⟨sum, by rw [ordinal], chain, aligned, below⟩]

theorem msizeWord_eq (s : State) : s.msizeWord = BitVec.ofNat 16 s.straps.msize.toNat := by
  apply BitVec.eq_of_toNat_eq
  simp [State.msizeWord]

/-- Settles O44: the check word, anchors and records read back, and the three kinds of anchor. -/
theorem durableStructuresReadBack : Obligations.DurableStructuresReadBack := by
  refine ⟨fun ws h l => ⟨rfl, rfl, checkWord_sum ws, rfl⟩, fun a => ⟨rfl, ?_, anchorOf_words a, rfl, rfl⟩,
    fun g k c l image eight => recordWords_reads g k c l eight, fun s d hd => ?_⟩
  · exact (anchorIntact_iff _).2 ⟨rfl, checkWord_sum _⟩
  · subst hd
    refine ⟨fun sw => ?_, fun g k => ?_, fun f => ?_⟩
    · rw [← msizeWord_eq]
      cases sw <;> rfl
    · rw [← msizeWord_eq]
      rfl
    · rw [← msizeWord_eq]
      rfl

end Sys2Proof.Machine
end

section
/-! PROOFS. Samples of SEAL and of the input lines, line events, ticks, auto-commit and the end of a pulse. -/

namespace Sys2Proof.Machine

/-! ### Samples of SEAL (R55) -/

/-- The SEAL level stored and the claim of a waiting write do not meet. -/
theorem claimFirst_storeSeal (b : Bool) (s : State) :
    claimFirst (storeSeal b s) = storeSeal b (claimFirst s) := by
  have claimed : ∀ c : Cycle, claimEntry c (storeSeal b s) = storeSeal b (claimEntry c s) := by
    intro c
    have refused : ∀ (why : Reason) (tag : Word),
        refuse c.addr .write why tag (storeSeal b s) = storeSeal b (refuse c.addr .write why tag s) :=
      fun _ _ => rfl
    have accepted : ∀ cls : RegionClass, acceptWrite c.addr c.data c.lanes cls (storeSeal b s) =
        storeSeal b (acceptWrite c.addr c.data c.lanes cls s) := fun cls => by
      cases cls <;> rfl
    have unfolded : claimEntry c (storeSeal b s) =
        if s.refusesState then refuse c.addr .write .state 0 (storeSeal b s)
        else if (s.lookup c.addr).1.refusesWrites then
          refuse c.addr .write .cls (s.lookup c.addr).2 (storeSeal b s)
        else if s.gateRefuses (s.lookup c.addr).1 then
          refuse c.addr .write .gate (s.lookup c.addr).2 (storeSeal b s)
        else acceptWrite c.addr c.data c.lanes (s.lookup c.addr).1 (storeSeal b s) := rfl
    rw [unfolded, refused, refused, refused, accepted]
    unfold claimEntry
    dsimp only
    split_ifs <;> rfl
  have same : (storeSeal b s).writeMayClaim = s.writeMayClaim := rfl
  cases current : s.up.cycle with
  | none => simp [claimFirst, current]
  | some c =>
    by_cases claims : c.phase = .waitingWrite ∧ s.writeMayClaim = true
    · simp [claimFirst, current, claims, same, claimed]
    · simp only [claimFirst, storeSeal_keeps, current, same, if_neg claims]

/-! ### Samples of the lines (R104) -/

theorem noFilter_iff (s : State) :
    decide (s.settings.inputFilter.toNat = 0) = decide (s.settings.inputFilter = 0) :=
  decide_eq_decide.2 ⟨fun h => BitVec.eq_of_toNat_eq h, fun h => by rw [h]; rfl⟩

theorem sampleFresh_active {l : InputLine} {high : Bool} {s : State} (h : high = s.activeLevel l) :
    sampleFresh l high s = setInput l { active := false, run := some 0, last := some high
                                        qualified := decide (s.settings.inputFilter = 0) } s := by
  rw [sampleFresh, if_pos h, noFilter_iff]

theorem sampleFresh_inactive {l : InputLine} {high : Bool} {s : State} (h : high ≠ s.activeLevel l) :
    sampleFresh l high s =
      setInput l { active := false, run := none, last := some high, qualified := false } s := if_neg h

theorem sampleFresh_eq (l : InputLine) (high : Bool) (s : State) : sampleFresh l high s =
    setInput l (if high = s.activeLevel l then
        { active := false, run := some 0, last := some high
          qualified := decide (s.settings.inputFilter = 0) }
      else { active := false, run := none, last := some high, qualified := false }) s := by
  by_cases active : high = s.activeLevel l
  · rw [sampleFresh_active active, if_pos active]
  · rw [sampleFresh_inactive active, if_neg active]

/-- The first sample stores the SEAL level and samples both lines afresh (R55, R104). -/
theorem firstSample_all {s : State} (hseal : s.intake.sealSample = none) (hpfail : s.gate.pfail.last = none)
    (hfault : s.gate.fault.last = none) (x p f : Bool) : exec (.firstSample x p f) s =
      .next (sampleFresh .fault f (sampleFresh .pfail p (storeSeal x s))) := by
  have stored : (storeSeal x s).gate.pfail.last = none := hpfail
  have sampled : (sampleFresh .pfail p (storeSeal x s)).gate.fault.last = none := by
    unfold sampleFresh
    split <;> exact hfault
  simp only [exec, execFirstSample, hseal, stored, sampled, Option.isNone_none, if_true]

/-- Settles O46: samples of SEAL and of the two lines. -/
theorem lineSamples : Obligations.LineSamples := by
  intro s
  refine ⟨fun u low claim => ?_, fun other => ?_, rfl, rfl, rfl, fun x => ⟨rfl, rfl⟩, rfl, ?_,
    fun l => ⟨fun fresh => ?_, fun running => ?_, ?_⟩, fun x p f hseal hpfail hfault => ?_⟩
  · have claimed : u = claimFirst s := (Host.Outcome.next.inj claim).symm
    subst claimed
    simp only [exec, execSealEdge, low, claimFirst_storeSeal]
    rfl
  · cases sample : s.intake.sealSample with
    | none =>
      simp only [exec, execSealEdge, sample]
      rfl
    | some asserted =>
      cases asserted with
      | false => exact absurd sample other
      | true =>
        simp only [exec, execSealEdge, sample]
        rw [← sample]
  · simp only [State.activeLevel]
    cases s.settings.faultPolarity <;> rfl
  · simp only [exec, execLineRunBegin, fresh, Option.isSome_none, Bool.false_eq_true, if_false,
      sampleFresh_active]
  · simp only [exec, execLineRunBegin, Option.isSome_iff_ne_none.2 running, if_true]
  · have inactive : (!s.activeLevel l) ≠ s.activeLevel l := by cases s.activeLevel l <;> simp
    simp only [exec, execLineRelease, sampleFresh_inactive inactive]
  · rw [firstSample_all hseal hpfail hfault]
    rw [sampleFresh_eq, sampleFresh_eq]
    rfl

/-! ### Line events (R104, R106) -/

theorem trigger_outside {s : State} (h1 : s.gate.opState ≠ .running) (h2 : s.gate.opState ≠ .frozen)
    (cause : Cause) (a : Action) : trigger cause a s = s := by
  cases mode : s.gate.opState with
  | running => exact absurd mode h1
  | frozen => exact absurd mode h2
  | recovering | unformatted | formatting => simp only [trigger, mode]

/-- Settles O47: a run that has lasted makes its line ACTIVE, and an enabled line is a trigger. -/
theorem lineEvents : Obligations.LineEvents := by
  intro s l t on cause a hp hf
  refine ⟨fun n run inactive ht => ?_, fun still => ?_⟩
  · have event : exec (.lineEvent l) s = .next (if t.lineEnabled l then lineTrigger l t else t) := by
      simp only [exec, execLineEvent, run, inactive, Bool.false_eq_true, if_false, ht]
      rfl
    have taken : exec (.lineEvent l) s = .next (if on then trigger cause a t else t) := by
      rw [event, ht]
      cases l with
      | pfail =>
        obtain ⟨rfl, rfl, rfl⟩ := hp rfl
        rfl
      | fault =>
        obtain ⟨rfl, rfl, rfl⟩ := hf rfl
        rfl
    refine ⟨taken, fun h1 h2 => ?_⟩
    have mode : t.gate.opState = s.gate.opState := by
      rw [ht]
      cases l <;> rfl
    rw [taken, trigger_outside (by rwa [mode]) (by rwa [mode]), ite_self]
  · cases run : (s.input l).run with
    | none => simp only [exec, execLineEvent, run]
    | some n =>
      have active : (s.input l).active = true := still.resolve_left (by simp [run])
      simp only [exec, execLineEvent, run, active, if_true]

/-! ### Ticks, auto-commit and the pulse (R56, R177, R180) -/

theorem tickedAuto_eq (s : State) : s.tickedAuto =
    if s.settings.autoInterval = 0 then { count := 0, running := false, due := false }
    else if s.intake.auto.running then
      { count := satInc s.intake.auto.count
        running := decide ((satInc s.intake.auto.count).toNat < s.settings.autoInterval.toNat)
        due := decide (s.settings.autoInterval.toNat ≤ (satInc s.intake.auto.count).toNat) }
    else if s.intake.dirty ∧ s.intake.auto.count = 0 then
      { count := 0, running := true, due := false }
    else s.intake.auto := by
  have rises : (if s.settings.autoInterval.toNat ≤ (satInc s.intake.auto.count).toNat then
      { count := satInc s.intake.auto.count, running := false, due := true }
      else { count := satInc s.intake.auto.count, running := true, due := false }) =
      ({ count := satInc s.intake.auto.count
         running := decide ((satInc s.intake.auto.count).toNat < s.settings.autoInterval.toNat)
         due := decide (s.settings.autoInterval.toNat ≤ (satInc s.intake.auto.count).toNat) } :
        AutoCommit) := by
    by_cases reached : s.settings.autoInterval.toNat ≤ (satInc s.intake.auto.count).toNat
    · simp [reached, Nat.not_lt.2 reached]
    · simp [reached, Nat.lt_of_not_le reached]
  rw [← rises]
  rfl

theorem exec_autoCommitExpiry_due {s : State} (due : s.intake.auto.due = true) :
    exec .autoCommitExpiry s = .next (takeAuto (claimFirst s)) := by
  simp only [exec, execAutoCommitExpiry, due, if_true]

/-- Settles O48: the tick, the auto-commit request and the end of a pulse. -/
theorem timebaseEvents : Obligations.TimebaseEvents := by
  intro s
  refine ⟨?_, fun idle => ?_, fun u due claim => ?_, fun none_ => ?_, fun some_ => ?_⟩
  · rw [← tickedAuto_eq]
    rfl
  · simp only [exec, execAutoCommitExpiry, idle, Bool.false_eq_true, if_false]
  · have claimed : u = claimFirst s := (Host.Outcome.next.inj claim).symm
    rw [exec_autoCommitExpiry_due due, ← claimed]
    refine ⟨fun step => ?_, fun step => ?_, fun step => ?_, fun r step => ?_, fun step => ?_⟩ <;>
      simp only [takeAuto, step] <;> rfl
  · simp only [exec, execAttnPulseEnd, none_]
  · obtain ⟨n, pulse⟩ := Option.ne_none_iff_exists'.1 some_
    simp only [exec, execAttnPulseEnd, pulse]
    rfl

end Sys2Proof.Machine
end

section
/-! PROOFS. Frames of the control link, and the bytes that spell a command. -/

namespace Sys2Proof

/-! ### The bytes of a frame (10.1, 10.2) -/

theorem joinThree_bytes (x : BitVec 24) :
    joinThree (x.extractLsb' 16 8) (x.extractLsb' 8 8) (x.extractLsb' 0 8) = x := by
  have upper : x.extractLsb' 16 8 ++ x.extractLsb' 8 8 = x.extractLsb' 8 16 :=
    BitVec.extractLsb'_append_extractLsb'_eq_extractLsb' rfl
  rw [joinThree, upper]
  exact BitVec.extractLsb'_append_extractLsb'

theorem joinBytes_bytes (w : Word) : joinBytes (hiByte w) (loByte w) = w :=
  BitVec.extractLsb'_append_extractLsb'

/-- The number of parameter bytes of a known command byte (10.2). -/
def paramCount : Nat → Nat
  | 0x03 | 0x07 => 3
  | 0x06 => 5
  | 0x08 | 0x0A | 0x0B | 0x0D => 1
  | 0x09 => 2
  | _ => 0

theorem knownCode_iff (code : Byte) : knownCode code = true ↔ 1 ≤ code.toNat ∧ code.toNat ≤ 13 := by
  simp [knownCode, BitVec.le_def]

/-- Row by row of the command summary, no other number of parameter bytes gives a command. -/
theorem knownFrame_length {code : Nat} {params : List Byte} {c : Instr} (low : 1 ≤ code)
    (high : code ≤ 13) (h : knownFrame code params = some c) : params.length = paramCount code := by
  interval_cases code
  all_goals
    rcases params with _ | ⟨a, _ | ⟨b, _ | ⟨d, _ | ⟨e, _ | ⟨f, _ | ⟨g, q⟩⟩⟩⟩⟩⟩
    all_goals cases h
  all_goals rfl

theorem frameCommand_cons (code : Byte) (params : List Byte) : frameCommand (code :: params) =
    if knownCode code then knownFrame code.toNat params
    else if params = [] then some (.unknownCommand code) else none := rfl

theorem frameCommand_length {code : Byte} {params : List Byte} {c : Instr}
    (h : frameCommand (code :: params) = some c) :
    params.length = if knownCode code then paramCount code.toNat else 0 := by
  rw [frameCommand_cons] at h
  by_cases known : knownCode code = true
  · rw [if_pos known] at h ⊢
    obtain ⟨low, high⟩ := (knownCode_iff code).1 known
    exact knownFrame_length low high h
  · rw [if_neg known] at h ⊢
    split at h
    · rename_i empty
      rw [empty]
      rfl
    · cases h

/-- No other number of bytes gives a command. -/
theorem frameCommand_append {front back : List Byte} {c c' : Instr} (h : frameCommand front = some c)
    (h' : frameCommand (front ++ back) = some c') : back = [] := by
  cases front with
  | nil => cases h
  | cons code params =>
    have length := frameCommand_length h
    have length' : (params ++ back).length = _ := frameCommand_length h'
    rw [List.length_append] at length'
    exact List.length_eq_zero_iff.1 (by omega)

theorem setCommand_setOf (id : Byte) (v : Word) : (setCommand id v).setOf = some (id, v) := by
  have byte : ∀ {n : Nat} {b : Byte}, id.toNat = n → b.toNat = n → b = id := fun h h' =>
    BitVec.eq_of_toNat_eq (h'.trans h.symm)
  unfold setCommand
  split <;> rename_i h
  · rw [← byte h (b := 0x01#8) rfl]; rfl
  · rw [← byte h (b := 0x05#8) rfl]; rfl
  · rw [← byte h (b := 0x06#8) rfl]; rfl
  · rw [← byte h (b := 0x0A#8) rfl]; rfl
  · rw [← byte h (b := 0x0C#8) rfl]; rfl
  · rw [← byte h (b := 0x0D#8) rfl]; rfl
  · rw [← byte h (b := 0x0F#8) rfl]; rfl
  · rfl

theorem not_knownCode {code : Byte} (h : code = 0 ∨ 0x0D#8 < code) : ¬ knownCode code = true := by
  rw [knownCode_iff]
  obtain rfl | above := h
  · decide
  · rw [BitVec.lt_def] at above
    have : (0x0D#8 : Byte).toNat = 13 := rfl
    omega

theorem frameCommand_unknown {code : Byte} (h : ¬ knownCode code = true) :
    frameCommand [code] = some (.unknownCommand code) := by
  rw [frameCommand_cons, if_neg h, if_pos rfl]

theorem setCommand_of_plain {id : Byte} (v : Word) (h : (Instr.set id v).wellFormed = true) :
    setCommand id v = .set id v := by
  have other : ∀ b ∈ ownRowIds, id.toNat ≠ b.toNat := by
    intro b member same
    have absent : ownRowIds.contains id = false := by simpa [Instr.wellFormed] using h
    rw [BitVec.eq_of_toNat_eq same] at absent
    simp [member] at absent
  unfold setCommand
  split
  case h_8 => rfl
  all_goals rename_i code
  · exact absurd code (other 0x01#8 (by decide))
  · exact absurd code (other 0x05#8 (by decide))
  · exact absurd code (other 0x06#8 (by decide))
  · exact absurd code (other 0x0A#8 (by decide))
  · exact absurd code (other 0x0C#8 (by decide))
  · exact absurd code (other 0x0D#8 (by decide))
  · exact absurd code (other 0x0F#8 (by decide))

theorem frameCommand_set (id : Byte) (v : Word) :
    frameCommand (setBytes id v) = some (setCommand id v) := by
  have frame : frameCommand (setBytes id v) = some (setCommand id (joinBytes (hiByte v) (loByte v))) := rfl
  rw [frame, joinBytes_bytes]

/-- The bytes of a command's frame spell the command. -/
theorem frameCommand_frameBytes {c : Instr} (formed : c.wellFormed = true)
    (command : c.isLinkCommand = true ∨ ∃ b, c = .unknownCommand b) : frameCommand c.frameBytes = some c := by
  cases c with
  | status | commit | thaw | rollback | clearCounters => rfl
  | get id | readReport id | clearWatch id | freeze id => rfl
  | loadTable base =>
    have frame : frameCommand (Instr.loadTable base).frameBytes = some (.loadTable (joinThree
      (base.extractLsb' 16 8) (base.extractLsb' 8 8) (base.extractLsb' 0 8))) := rfl
    rw [frame, joinThree_bytes]
  | format base slots =>
    have frame : frameCommand (Instr.format base slots).frameBytes = some (.format (joinThree
      (base.extractLsb' 16 8) (base.extractLsb' 8 8) (base.extractLsb' 0 8))
      (joinBytes (hiByte slots) (loByte slots))) := rfl
    rw [frame, joinThree_bytes, joinBytes_bytes]
  | clearEvents mask =>
    have frame : frameCommand (Instr.clearEvents mask).frameBytes =
      some (.clearEvents (joinBytes (hiByte mask) (loByte mask))) := rfl
    rw [frame, joinBytes_bytes]
  | set id v => exact (frameCommand_set id v).trans (congrArg some (setCommand_of_plain v formed))
  | setClockRate v | setFaultPolarity v | setFreezeMask v | setFreezeScope v
  | setAutoCommitInterval v | setAttnMode v | setEventEnables v => exact frameCommand_set _ v
  | unknownCommand code =>
    exact frameCommand_unknown (by simpa [Instr.wellFormed] using formed)
  | _ => obtain link | ⟨b, same⟩ := command <;> contradiction

end Sys2Proof

namespace Sys2Proof.Machine

/-! ### Frames on the link (R163 to R166) -/

theorem resultAfter_eq (l : Link) (n : Nat) : l.resultAfter n = match l.frame with
    | none => l.last
    | some { taken := some x } => x.result
    | some { taken := none } => if n = 0 then l.last else .badReq := by
  unfold Link.resultAfter
  obtain _ | ⟨_ | x⟩ := l.frame <;> rfl

theorem exec_unknownCommand {b : Byte} (unknown : ¬ knownCode b = true) (s : State) :
    exec (.unknownCommand b) s = .next (takeCommand 0 (plain .badReq) s) :=
  congrArg Host.Outcome.next (if_neg unknown)

theorem exec_outside {c : Instr} {b : Byte} {s : State}
    (command : c.isLinkCommand = true ∨ c = .unknownCommand b)
    (outside : s.link.frame ≠ some { taken := none }) : exec c s = .next s := by
  obtain link | rfl := command
  · obtain ⟨n, owner, taking⟩ := taking_of_isLinkCommand link
    rw [exec_of_taking taking, takeCommand_outside outside]
  · by_cases known : knownCode b = true
    · exact congrArg Host.Outcome.next (if_pos known)
    · rw [exec_unknownCommand known, takeCommand_outside outside]

theorem params_of_taking {c : Instr} {n : Nat} {owner : State → Answer}
    (h : takingOf c = some (n, owner)) : n + 1 = c.frameBytes.length := by
  cases c <;> cases h <;> rfl

/-- What SDO gives once a command is taken (R164, R165). -/
theorem sdo_of_taken {s : State} {x : Taken} (h : s.link.frame = some { taken := some x }) :
    (∀ i, i < x.params + 2 → s.sdo i = some 0) ∧ s.sdo (x.params + 2) = some x.result.code ∧
    (∀ i b, x.response[i]? = some b → s.sdo (x.params + 3 + i) = some b) ∧
    (∀ i, x.params + 3 + x.response.length ≤ i → s.sdo i = some 0xFF#8) := by
  have sdo : ∀ i, s.sdo i = some (x.sdoByte i) := fun i => by simp only [State.sdo, h]
  refine ⟨fun i early => ?_, ?_, fun i b byte => ?_, fun i late => ?_⟩
  · rw [sdo, Taken.sdoByte, if_pos early]
  · rw [sdo, Taken.sdoByte, if_neg (by omega), if_pos rfl]
  · have place : x.params + 3 + i - (x.params + 3) = i := by omega
    rw [sdo, Taken.sdoByte, if_neg (by omega), if_neg (by omega), place, byte]
    rfl
  · rw [sdo, Taken.sdoByte, if_neg (by omega), if_neg (by omega), List.getElem?_eq_none (by omega)]
    rfl

/-- Settles O49: frames, their results, SDO, and the bytes that give a command. -/
theorem frames : Obligations.Frames := by
  refine ⟨fun s => ⟨fun high seen => ?_, fun no_frame => ?_, fun n => ?_, fun b unknown frame => ?_,
    fun c b command outside => exec_outside command outside, fun none_ i => ?_, fun open_ i => ?_,
    fun x taken => ?_⟩, fun a b c h l => ⟨rfl, rfl, rfl, rfl, rfl, rfl, ?_, rfl, rfl, rfl, rfl, rfl, rfl,
    fun unknown => frameCommand_unknown (not_knownCode unknown)⟩, fun c formed command => ?_⟩
  · exact congrArg (fun f => Host.Outcome.next (s.setLink { s.link with csnLow := true, frame := f }))
      (if_pos ⟨high, seen⟩)
  · have stays : ¬ (s.link.csnLow = false ∧ s.link.seenHigh = true) := by
      rintro ⟨high, seen⟩
      obtain low | unseen := no_frame
      · simp [high] at low
      · simp [seen] at unseen
    exact congrArg (fun f => Host.Outcome.next (s.setLink { s.link with csnLow := true, frame := f }))
      (if_neg stays)
  · exact congrArg (fun r => Host.Outcome.next (s.setLink
      { csnLow := false, seenHigh := true, frame := none, last := r })) (resultAfter_eq s.link n)
  · rw [exec_unknownCommand (not_knownCode unknown), takeCommand_taken frame]
    rfl
  · simp only [State.sdo, none_]
  · simp only [State.sdo, open_]
  · obtain ⟨early, result, response, late⟩ := sdo_of_taken taken
    refine ⟨early, result.trans ?_, response, late⟩
    cases x.result <;> rfl
  · exact ⟨_, rfl, setCommand_setOf a (h ++ l)⟩
  · have spells := frameCommand_frameBytes formed command
    refine ⟨spells, fun front back split_ some_left => ?_, fun more some_more => ?_, fun s frame => ?_⟩
    · by_contra given
      obtain ⟨c', front_spells⟩ := Option.ne_none_iff_exists'.1 given
      exact some_left (frameCommand_append front_spells (split_ ▸ spells))
    · by_contra given
      obtain ⟨c', more_spells⟩ := Option.ne_none_iff_exists'.1 given
      exact some_more (frameCommand_append spells more_spells)
    · obtain link | ⟨b, rfl⟩ := command
      · obtain ⟨n, owner, taking⟩ := taking_of_isLinkCommand link
        rw [exec_of_taking taking, takeCommand_taken frame]
        exact ⟨_, _, rfl, rfl, params_of_taking taking⟩
      · have unknown : ¬ knownCode b = true := by simpa [Instr.wellFormed] using formed
        rw [exec_unknownCommand unknown, takeCommand_taken frame]
        exact ⟨_, _, rfl, rfl, rfl⟩

end Sys2Proof.Machine
end

section
/-! PROOFS. STATUS, GET and the reports of READ REPORT, byte by byte. -/

namespace Sys2Proof.Machine

/-! ### Bytes and bits -/

theorem bytes4_eq (y : Long) : bytes4 y =
    [y.extractLsb' 24 8, y.extractLsb' 16 8, y.extractLsb' 8 8, y.extractLsb' 0 8] := by
  have slice : ∀ i j, i + 8 ≤ 16 →
      (y.extractLsb' j 16).extractLsb' i 8 = y.extractLsb' (j + i) 8 := by
    intro i j inside
    ext k hk
    have : i + k < 16 := by omega
    simp [this, Nat.add_assoc]
  have unfolded : bytes4 y = [(y.extractLsb' 16 16).extractLsb' 8 8, (y.extractLsb' 16 16).extractLsb' 0 8,
    (y.extractLsb' 0 16).extractLsb' 8 8, (y.extractLsb' 0 16).extractLsb' 0 8] := rfl
  rw [unfolded, slice 8 16 (by decide), slice 0 16 (by decide), slice 8 0 (by decide),
    slice 0 0 (by decide)]

/-- Bit i of a byte of bits is the i-th of them. -/
theorem bitsByte_getLsbD (bs : List Bool) (i : Nat) (h : i < 8) :
    (bitsByte bs).getLsbD i = bs.getD i false := by
  induction bs generalizing i with
  | nil => simp [bitsByte]
  | cons b bs ih =>
    have step : bitsByte (b :: bs) = (bitsByte bs <<< 1) ||| flagByte b := rfl
    rw [step, BitVec.getLsbD_or, BitVec.getLsbD_shiftLeft]
    cases i with
    | zero => cases b <;> simp [flagByte]
    | succ i =>
      have flag : (flagByte b).getLsbD (i + 1) = false := by cases b <;> simp [flagByte]
      rw [flag]
      simp [ih i (by omega), h]

theorem bitsByte_bits (b0 b1 b2 b3 b4 b5 b6 b7 : Bool) :
    ∀ x ∈ [(0, b0), (1, b1), (2, b2), (3, b3), (4, b4), (5, b5), (6, b6), (7, b7)],
      (bitsByte [b0, b1, b2, b3, b4, b5, b6, b7]).getLsbD x.1 = x.2 := by
  have bits : [(0, b0), (1, b1), (2, b2), (3, b3), (4, b4), (5, b5), (6, b6), (7, b7)] =
    (List.range 8).map (fun i => (i, [b0, b1, b2, b3, b4, b5, b6, b7].getD i false)) := rfl
  rw [bits]
  intro x member
  obtain ⟨i, inside, rfl⟩ := List.mem_map.1 member
  exact bitsByte_getLsbD _ i (List.mem_range.1 inside)

/-! ### How the readouts are taken (R167, R171, R173) -/

theorem exec_status {s : State} (frame : s.link.frame = some { taken := none }) :
    exec .status s = .next (s.answered 0 .done s.statusBytes) := by
  rw [exec_of_taking (c := .status) rfl, takeCommand_taken frame]

theorem exec_get {s : State} (frame : s.link.frame = some { taken := none }) (id : Byte) :
    exec (.get id) s = .next (s.answered 1 (answerGet id s).result (answerGet id s).response) := by
  rw [exec_of_taking (c := .get id) rfl, takeCommand_taken frame]
  unfold answerGet
  split <;> rfl

theorem exec_readReport {s : State} (frame : s.link.frame = some { taken := none }) (id : Byte) :
    (∀ bs, s.reportBytes id = some bs →
      exec (.readReport id) s = .next (s.answered 1 .done bs)) ∧
    (s.reportBytes id = none → exec (.readReport id) s = .next (s.answered 1 .badReq [])) := by
  refine ⟨fun bs known => ?_, fun unknown => ?_⟩
  · rw [exec_of_taking (c := .readReport id) rfl, takeCommand_taken frame]
    simp only [answerReport, known]
  · rw [exec_of_taking (c := .readReport id) rfl, takeCommand_taken frame]
    simp only [answerReport, unknown, plain]

theorem reportBytes_watch (s : State) {id : Byte} {n : Fin 4} (h : id.toNat = 4 + n.val) :
    s.reportBytes id = some (s.watch.get n).bytes := by
  unfold State.reportBytes
  rw [h]
  match n with
  | 0 | 1 | 2 | 3 => rfl

theorem reportBytes_none (s : State) {id : Byte} (h : id.toNat = 0 ∨ 8 < id.toNat) :
    s.reportBytes id = none := by
  unfold State.reportBytes
  split
  case h_9 => rfl
  all_goals omega

/-! ### STATUS (R169) -/

theorem flagByte_eq (b : Bool) : bitsByte [b] = if b then 1 else 0 := by
  cases b <;> rfl

theorem isSome_eq {α : Type} (o : Option α) [Decidable (o ≠ none)] : o.isSome = decide (o ≠ none) := by
  cases o <;> simp

theorem statusFlags_eq (s : State) : s.statusFlags = bitsByte [s.intake.pendingCommit,
    decide (s.engine.abandoned ≠ none), decide (s.gate.order ≠ none),
    decide (s.gate.pfail.last = some true), decide (s.gate.fault.last = some true), s.straps.maint,
    false, false] := by
  rw [← isSome_eq, ← isSome_eq]
  rfl

/-- The 27 bytes of STATUS, field by field. -/
theorem statusBytes_fields (s : State) :
    s.statusBytes.length = 27 ∧ s.statusBytes.getD 0 0 = s.gate.opState.code ∧
    s.statusBytes.getD 1 0 = bitsByte [s.gate.causes.exhausted] ∧
    s.statusBytes.getD 2 0 = bitsByte [s.gate.causes.pfail, s.gate.causes.fault,
      s.gate.causes.watch, s.gate.causes.soft, s.gate.causes.jfull, s.gate.causes.verify,
      s.gate.causes.table, s.gate.causes.anchor] ∧
    s.statusBytes.getD 3 0 = s.gate.level.code ∧
    s.statusBytes.getD 4 0 = s.engine.work.activityCode ∧
    s.statusBytes.getD 5 0 = s.engine.work.stageCode ∧
    s.statusBytes.getD 6 0 = BitVec.ofNat 8 s.queue.entries.length ∧
    s.statusBytes.getD 7 0 = s.statusFlags ∧ s.statusBytes.getD 8 0 = s.region.state.code ∧
    s.statusBytes.getD 9 0 = s.straps.msize.zeroExtend 8 ∧
    (s.statusBytes.drop 10).take 16 = bytes4 s.intake.group ++ bytes4 s.engine.closed ++
      bytes2 s.engine.count ++ bytes4 (s.engine.abandoned.getD 0) ++
      bytes2 (s.events.flags.zeroExtend 16) ∧
    s.statusBytes.getD 26 0 = s.link.last.code :=
  ⟨rfl, rfl, rfl, rfl, rfl, rfl, rfl, rfl, rfl, rfl, rfl, rfl, rfl⟩

/-! ### The reports (R173 to R176) -/

theorem anchorCodes_bits (c0 c1 : AnchorClass) (torn : Bool) :
    ((c0.code ||| (c1.code <<< 2)) ||| (flagByte torn <<< 4)).extractLsb' 0 2 = c0.code.extractLsb' 0 2 ∧
    ((c0.code ||| (c1.code <<< 2)) ||| (flagByte torn <<< 4)).extractLsb' 2 2 = c1.code.extractLsb' 0 2 ∧
    ((c0.code ||| (c1.code <<< 2)) ||| (flagByte torn <<< 4)).getLsbD 4 = torn ∧
    ((c0.code ||| (c1.code <<< 2)) ||| (flagByte torn <<< 4)).extractLsb' 5 3 = 0 := by
  cases c0 <;> cases c1 <;> cases torn <;> decide

/-- The classes byte of the RESTORE report, bit by bit. -/
theorem classByte_bits (r : RestoreReport) :
    (∀ c0 c1, r.classes = some (c0, c1) → r.classByte.extractLsb' 0 2 = c0.code.extractLsb' 0 2 ∧
      r.classByte.extractLsb' 2 2 = c1.code.extractLsb' 0 2) ∧
    (r.classes = none → r.classByte.extractLsb' 0 4 = 0) ∧
    r.classByte.getLsbD 4 = r.tornAnchor ∧ r.classByte.extractLsb' 5 3 = 0 := by
  cases classes : r.classes with
  | none =>
    have byte : r.classByte = (0 : Byte) ||| (flagByte r.tornAnchor <<< 4) := by
      simp only [RestoreReport.classByte, classes]
    rw [byte]
    refine ⟨fun c0 c1 h => (by cases h), fun _ => ?_, ?_, ?_⟩ <;> cases r.tornAnchor <;> rfl
  | some pair =>
    obtain ⟨d0, d1⟩ := pair
    obtain ⟨low, high, torn, rest⟩ := anchorCodes_bits d0 d1 r.tornAnchor
    have byte : r.classByte = (d0.code ||| (d1.code <<< 2)) ||| (flagByte r.tornAnchor <<< 4) := by
      simp only [RestoreReport.classByte, classes]
    rw [byte]
    refine ⟨fun c0 c1 h => ?_, fun h => (by cases h), torn, rest⟩
    cases h
    exact ⟨low, high⟩

/-- The 28 bytes of the RESTORE report, field by field. -/
theorem restoreBytes_fields (r : RestoreReport) :
    r.bytes.length = 28 ∧ r.bytes.getD 0 0 = r.origin.code ∧ r.bytes.getD 1 0 = r.outcome.code ∧
    r.bytes.getD 2 0 = bitsByte [decide (r.examined ≠ none), decide (r.stopSlot ≠ none),
      decide (r.anchorIndex ≠ none), decide (r.classes ≠ none), decide (r.stopReason ≠ none), false, false,
      false] ∧
    (r.bytes.drop 3).take 14 = bytes4 (r.examined.getD 0) ++ bytes4 r.closed ++ bytes2 r.found ++
      bytes2 r.restored ++ bytes2 (r.stopSlot.getD 0) ∧
    r.bytes.getD 17 0 = (r.stopReason.map StopReason.code).getD 0 ∧
    (r.bytes.drop 18).take 2 = bytes2 r.mismatches ∧
    r.bytes.getD 20 0 = BitVec.ofNat 8 (r.anchorIndex.getD 0) ∧ r.bytes.getD 21 0 = r.classByte ∧
    r.bytes.drop 22 = bytes2 r.discardedWrites ++ bytes2 r.discardedTokens ++ bytes2 r.tick := by
  refine ⟨rfl, rfl, rfl, ?_, rfl, rfl, rfl, rfl, rfl, rfl⟩
  rw [← isSome_eq, ← isSome_eq, ← isSome_eq, ← isSome_eq, ← isSome_eq]
  rfl

/-- The 9 bytes of the TABLE report, field by field. -/
theorem tableBytes_fields (r : TableResult) :
    r.bytes.length = 9 ∧ r.bytes.getD 0 0 = r.outcome.code ∧ r.bytes.getD 1 0 = r.origin.code ∧
    (r.bytes.drop 2).take 3 = bytes3 (reportBase r.base) ∧
    r.bytes.drop 5 = [BitVec.ofNat 8 r.read, BitVec.ofNat 8 r.index] ++ bytes2 r.tick :=
  ⟨rfl, rfl, rfl, rfl, rfl⟩

theorem watchBytes_none {u : WatchUnit} (h : u.capture = none) :
    u.bytes = [0] ++ bytes2 u.hits ++ List.replicate 14 0 := by
  simp only [WatchUnit.bytes, h]
  rfl

theorem watchBytes_some {u : WatchUnit} {c : WatchCapture} (h : u.capture = some c) :
    u.bytes = [1] ++ bytes2 u.hits ++ bytes3 (c.addr.zeroExtend 24) ++ [c.direction.code, c.lanes.code] ++
      bytes2 c.data ++ [c.cls.code] ++ bytes4 c.group ++ bytes2 c.tick := by
  simp only [WatchUnit.bytes, h]
  rfl

/-- Settles O50: what the readouts answer, byte by byte. -/
theorem readouts : Obligations.Readouts := by
  refine ⟨fun w x y => ⟨rfl, rfl, bytes4_eq y⟩, fun s frame => ⟨⟨s.statusBytes, exec_status frame, ?_⟩,
    fun id x known => ?_, fun id unknown => ?_, fun r hr => ?_, fun r hr => ?_, fun none_ => ?_,
    fun c some_ => ?_, fun id n u hid hu => ⟨fun none_ => ?_, fun c some_ => ?_⟩, ?_,
    fun id unknown => (exec_readReport frame id).2 (reportBytes_none s unknown)⟩⟩
  · obtain ⟨length, mode, exhausted, causes, level, activity, stage, queue, flags, table, msize, numbers,
      last⟩ := statusBytes_fields s
    rw [mode, exhausted, causes, level, activity, stage, flags, table, last, statusFlags_eq, flagByte_eq]
    refine ⟨length, ?_, rfl, bitsByte_bits _ _ _ _ _ _ _ _, ?_, ?_, ?_, queue,
      bitsByte_bits _ _ _ _ _ _ _ _, ?_, msize, numbers, ?_⟩
    · cases s.gate.opState <;> rfl
    · cases s.gate.level <;> rfl
    · cases s.engine.work <;> rfl
    · cases s.engine.work with
      | draining d =>
        cases d with
        | record b | anchor b =>
          obtain ⟨base, words, phase⟩ := b
          cases phase <;> rfl
        | _ => rfl
      | _ => rfl
    · cases s.region.state <;> rfl
    · cases s.link.last <;> rfl
  · rw [exec_get frame]
    simp only [answerGet, known]
  · rw [exec_get frame]
    simp only [answerGet, unknown]
  · subst hr
    refine ⟨_, (exec_readReport frame 0x01#8).1 _ rfl, ?_⟩
    obtain ⟨length, origin, outcome, present, numbers, reason, mismatches, index, classes, rest⟩ :=
      restoreBytes_fields s.events.restore
    obtain ⟨both, none_, torn, zero⟩ := classByte_bits s.events.restore
    rw [origin, outcome, present, reason, index, classes]
    refine ⟨length, ?_, ?_, bitsByte_bits _ _ _ _ _ _ _ _, numbers, ?_, mismatches, rfl, fun c0 c1 read => ?_, none_, torn,
      zero, rest⟩
    · cases s.events.restore.origin <;> rfl
    · cases s.events.restore.outcome <;> rfl
    · obtain _ | why := s.events.restore.stopReason
      · rfl
      · cases why <;> rfl
    · obtain ⟨low, high⟩ := both c0 c1 read
      rw [low, high]
      constructor
      · cases c0 <;> rfl
      · cases c1 <;> rfl
  · subst hr
    refine ⟨_, (exec_readReport frame 0x02#8).1 _ rfl, ?_⟩
    obtain ⟨length, outcome, origin, base, rest⟩ := tableBytes_fields s.region.result
    rw [outcome, origin, base]
    refine ⟨length, ?_, ?_, fun small => ?_, rest⟩
    · cases s.region.result.outcome <;> rfl
    · cases s.region.result.origin <;> rfl
    · rw [reportBase, if_pos small]
  · have bytes : s.reportBytes 0x03#8 = some (List.replicate 10 0) := by
      rw [← show refusalBytes s.events.refusal = List.replicate 10 0 by rw [none_]; rfl]
      rfl
    exact (exec_readReport frame 0x03#8).1 _ bytes
  · refine (exec_readReport frame 0x03#8).1 _ ?_
    have bytes : s.reportBytes 0x03#8 = some (refusalBytes s.events.refusal) := rfl
    rw [bytes, some_]
    obtain ⟨addr, direction, reason, tag, tick⟩ := c
    cases direction <;> cases reason <;> rfl
  · rw [← watchBytes_none none_, hu]
    exact (exec_readReport frame id).1 _ (reportBytes_watch s hid)
  · refine (exec_readReport frame id).1 _ ((reportBytes_watch s hid).trans ?_)
    rw [← hu, watchBytes_some some_]
    cases c.direction <;> cases c.lanes <;> cases c.cls <;> rfl
  · exact (exec_readReport frame 0x08#8).1 _ rfl

end Sys2Proof.Machine
end

section
/-! PROOFS. BUSY and refused commands; what a SET stores and what it does beside. -/

namespace Sys2Proof.Machine

/-! ### A command taken in a frame (R164, R167) -/

theorem exec_in_frame {c : Instr} {n : Nat} {owner : State → Answer} (h : takingOf c = some (n, owner))
    {s : State} (frame : s.link.frame = some { taken := none }) :
    exec c s = .next ((owner s).state.answered n (owner s).result (owner s).response) := by
  rw [exec_of_taking h, takeCommand_taken frame]

theorem exec_of_plain {c : Instr} {n : Nat} {owner : State → Answer} (h : takingOf c = some (n, owner))
    {s t : State} {r : Result} (frame : s.link.frame = some { taken := none })
    (answer : owner s = plain r t) : exec c s = .next (t.answered n r []) := by
  rw [exec_of_taking h, takeCommand_plain frame answer]

/-- Every command but the readouts is taken behind the check for RECOVERING and FORMATTING. -/
theorem taking_of_not_readout {c : Instr} (link : c.isLinkCommand = true)
    (readout : c.isReadout = false) : ∃ n owner, takingOf c = some (n, unlessBusy owner) := by
  cases c <;> cases link <;> cases readout <;> exact ⟨_, _, rfl⟩

/-- Settles O51: the check for BUSY stands before every owner, and an owner changes the state only with the
answer DONE (`settled_of_taking`). -/
theorem busyAndRefusedCommands : Obligations.BusyAndRefusedCommands := by
  refine ⟨fun c s link readout frame busy => ?_, fun c s t link frame taken refused => ?_⟩
  · obtain ⟨n, owner, taking⟩ := taking_of_not_readout link readout
    exact ⟨n, exec_of_plain taking frame (unlessBusy_busy busy owner)⟩
  · obtain ⟨n, owner, taking⟩ := taking_of_isLinkCommand link
    rw [exec_in_frame taking frame] at taken
    cases taken
    obtain done | same := settled_of_taking taking s
    · exact absurd (congrArg some done) refused
    · exact ⟨n, _, _, by rw [same]⟩

/-! ### The ids of the settings (R170) -/

theorem settingOf_unlisted {id : Byte} (h : id.toNat = 0 ∨ 0x10 ≤ id.toNat) :
    settingOf id = watchSettingOf id.toNat := by
  unfold settingOf
  split
  case h_16 => rfl
  all_goals omega

theorem unitOf_val (n : Fin 4) : unitOf n.val = some n := by
  fin_cases n <;> rfl

theorem watchFieldOf_above {k : Nat} (h : 9 < k) : watchFieldOf k = none := by
  obtain ⟨m, rfl⟩ := Nat.exists_eq_add_of_le' h
  rfl

theorem unitOf_above {k : Nat} (h : 3 < k) : unitOf k = none := by
  obtain ⟨m, rfl⟩ := Nat.exists_eq_add_of_le' h
  rfl

theorem watchSettingOf_below {k : Nat} (h : k < 0x20) : watchSettingOf k = none := if_pos h

theorem watchSettingOf_digits (n : Fin 4) {k : Nat} (h : k < 16) :
    watchSettingOf (0x20 + 16 * n.val + k) = (watchFieldOf k).map (Setting.watch n) := by
  have low : ¬ 0x20 + 16 * n.val + k < 0x20 := by omega
  have unit_ : (0x20 + 16 * n.val + k) / 16 - 2 = n.val := by omega
  have field_ : (0x20 + 16 * n.val + k) % 16 = k := by omega
  rw [watchSettingOf, if_neg low, unit_, field_, unitOf_val]
  cases watchFieldOf k <;> rfl

theorem watchSettingOf_above {k : Nat} (h : 0x60 ≤ k) : watchSettingOf k = none := by
  rw [watchSettingOf, if_neg (by omega), unitOf_above (by omega)]

theorem settingOf_digits (n : Fin 4) {id : Byte} {k : Nat} (small : k < 16)
    (h : id.toNat = 0x20 + 16 * n.val + k) : settingOf id = (watchFieldOf k).map (Setting.watch n) := by
  rw [settingOf_unlisted (by omega), h, watchSettingOf_digits n small]

theorem settingOf_gap (n : Fin 4) {id : Byte} (h : 0x29 + 16 * n.val < id.toNat)
    (h' : id.toNat < 0x30 + 16 * n.val) : settingOf id = none := by
  rw [settingOf_digits n (k := id.toNat - (0x20 + 16 * n.val)) (by omega) (by omega),
    watchFieldOf_above (by omega)]
  rfl

theorem settingOf_outside {id : Byte}
    (h : id.toNat = 0 ∨ (0x10 ≤ id.toNat ∧ id.toNat ≤ 0x1F) ∨ 0x5A ≤ id.toNat) : settingOf id = none := by
  by_cases last : 0x5A ≤ id.toNat ∧ id.toNat < 0x60
  · exact settingOf_gap 3 (Nat.lt_of_lt_of_le (by decide) last.1) last.2
  · rw [settingOf_unlisted (by omega)]
    by_cases above : 0x60 ≤ id.toNat
    · exact watchSettingOf_above above
    · exact watchSettingOf_below (by omega)

/-! ### What the settings read as -/

theorem addrUpper_eq (a : Addr) : addrUpper a = BitVec.ofNat 16 (a.toNat / 65536) := by
  apply BitVec.eq_of_toNat_eq
  simp only [addrUpper, BitVec.truncate_eq_setWidth, BitVec.toNat_setWidth, BitVec.extractLsb'_toNat,
    BitVec.toNat_ofNat, Nat.shiftRight_eq_div_pow]
  omega

theorem addrLower_eq (a : Addr) : addrLower a = BitVec.ofNat 16 (a.toNat % 65536) := by
  apply BitVec.eq_of_toNat_eq
  simp only [addrLower, BitVec.extractLsb'_toNat, BitVec.toNat_ofNat, Nat.shiftRight_zero]
  omega

theorem ofCode_twoBits (a b : Bool) :
    ofCode (bitsByte [a, b]) = (if a then 1 else 0) + (if b then 2 else 0) := by
  cases a <;> cases b <;> rfl

theorem ofCode_action (a : Action) : ofCode a.code =
    (match a with | .none => 0 | .sealGroup => 1 | .stop => 2 | .rollback => 3) := by
  cases a <;> rfl

theorem ofCode_flag (b : Bool) : ofCode (flagByte b) = if b then 1 else 0 := by
  cases b <;> rfl

theorem ofCode_direction (d : Direction) :
    ofCode d.code = (match d with | .read => 0 | .write => 1) := by
  cases d <;> rfl

theorem ofCode_class (c : RegionClass) : ofCode c.code =
    (match c with | .direct => 0 | .journaled => 1 | .guarded => 2 | .closed => 3 | .reserved => 4) := by
  cases c <;> rfl

theorem ofCode_watchAction (a : WatchAction) :
    ofCode a.code = (match a with | .note => 0 | .refuse => 1 | .freeze => 2) := by
  cases a <;> rfl

/-! ### What a SET answers and stores (R171) -/

/-- The settings whose change has an effect beside the value. -/
theorem settingEffect_other {x : Setting} (polarity : x ≠ .faultPolarity) (mask : x ≠ .freezeMask)
    (scope : x ≠ .scope) (enables : x ≠ .enables) (mode : x ≠ .attnMode) (before s : State) :
    settingEffect x before s = s := by
  cases x with
  | faultPolarity => exact absurd rfl polarity
  | freezeMask => exact absurd rfl mask
  | scope => exact absurd rfl scope
  | enables => exact absurd rfl enables
  | attnMode => exact absurd rfl mode
  | _ => rfl

theorem setting_read_settingEffect (y x : Setting) (before s : State) :
    y.read (settingEffect x before s) = y.read s :=
  setting_read_congr y _ _ (settingEffect_keeps x before s).2.2.2.1 (settingEffect_keeps x before s).2.2.1

theorem setting_read_answered (y : Setting) (s : State) (n : Nat) (r : Result) (bs : List Byte) :
    y.read (s.answered n r bs) = y.read s := rfl

section
variable {c : Instr} {id : Byte} {v : Word} {s : State} (row : c.setOf = some (id, v))
  (frame : s.link.frame = some { taken := none }) (h1 : s.gate.opState ≠ .recovering)
  (h2 : s.gate.opState ≠ .formatting)
include row frame h1 h2

theorem exec_set_of_plain {r : Result} {t : State} (answer : answerSet id v s = plain r t) :
    exec c s = .next (t.answered 3 r []) := by
  rw [exec_setOf row, takeSet, takeCommand_plain frame ((unlessBusy_free h1 h2 _).trans answer)]

theorem exec_set_unknown (unknown : settingOf id = none) :
    exec c s = .next (s.answered 3 .badReq []) :=
  exec_set_of_plain row frame h1 h2 (by simp only [answerSet, unknown])

theorem exec_set_outOfRange {x : Setting} (known : settingOf id = some x)
    (rejected : x.accepts v = false) : exec c s = .next (s.answered 3 .badReq []) :=
  exec_set_of_plain row frame h1 h2 (by simp [answerSet, known, rejected])

/-- A SET that is answered DONE: the value already held changes nothing, another is stored with its effect. -/
theorem exec_set_accepted {x : Setting} (known : settingOf id = some x) (accepted : x.accepts v = true) :
    ∃ t : State, exec c s = .next t ∧ t.frameResult = some .done ∧ t.frameResponse = some [] ∧
      x.read t = v ∧ (∀ y, y ≠ x → y.read t = y.read s) ∧
      (x.read s = v → t = s.answered 3 .done []) ∧
      (∀ n : Fin 4, (t.watch.get n).hits = (s.watch.get n).hits ∧
        (t.watch.get n).capture = (s.watch.get n).capture) ∧
      (x ≠ .faultPolarity → x ≠ .freezeMask → x ≠ .scope → x ≠ .enables → x ≠ .attnMode →
        t = { s with settings := t.settings, watch := t.watch, link := t.link }) := by
  by_cases held : x.read s = v
  · exact ⟨_, exec_set_same x row known frame h1 h2 accepted held, rfl, rfl, held, fun _ _ => rfl,
      fun _ => rfl, fun _ => ⟨rfl, rfl⟩, fun _ _ _ _ _ => rfl⟩
  · refine ⟨_, exec_set_changes x row known frame h1 h2 accepted held, rfl, rfl, ?_, fun y other => ?_,
      fun same => absurd same held, fun n => ?_, fun polarity mask scope enables mode => ?_⟩
    · rw [setting_read_answered, setting_read_settingEffect, setting_read_store_same x v s accepted]
    · rw [setting_read_answered, setting_read_settingEffect, setting_read_store_other x y v s other]
    · have watch : ((settingEffect x s (x.store v s)).answered 3 .done []).watch = (x.store v s).watch :=
        (settingEffect_keeps x s (x.store v s)).2.2.1
      rw [watch]
      exact setting_store_results x v s n
    · rw [settingEffect_other polarity mask scope enables mode]
      cases x <;> rfl

end

/-- Settles O52: each answer of a SET by its condition, the ranges by `Setting.accepts`, the readings by
`Setting.read`, and the ids of the watch units by their two digits. -/
theorem setStores : Obligations.SetStores := by
  refine ⟨fun c id v s row frame h1 h2 => ⟨exec_set_unknown row frame h1 h2,
      fun x known rejected => exec_set_outOfRange row frame h1 h2 known rejected,
      fun x known accepted => exec_set_accepted row frame h1 h2 known accepted⟩,
    fun v => ?ranges, fun s c hc => ?readings, fun id n => ?ids,
    rfl, rfl, rfl, rfl, rfl, rfl, rfl, rfl, rfl, rfl, rfl, rfl, rfl, rfl, rfl⟩
  case ranges =>
    simp [Setting.accepts, WatchField.accepts]
  case readings =>
    subst hc
    refine ⟨rfl, rfl, rfl, rfl, rfl, ofCode_twoBits _ _, fun x a actions => ?_, rfl, ofCode_flag _, rfl, rfl,
      rfl, rfl, fun n w hw => ?_⟩
    · simp only [List.mem_cons, Prod.mk.injEq, List.not_mem_nil, or_false] at actions
      obtain ⟨rfl, rfl⟩ | ⟨rfl, rfl⟩ | ⟨rfl, rfl⟩ := actions <;> exact ofCode_action _
    · subst hw
      exact ⟨addrUpper_eq _, addrLower_eq _, addrUpper_eq _, addrLower_eq _, ofCode_direction _, rfl, rfl,
        ofCode_class _, rfl, ofCode_watchAction _⟩
  case ids =>
    have field (k : Nat) (small : k < 16) (h : id.toNat = 0x20 + 16 * n.val + k) :
        settingOf id = (watchFieldOf k).map (Setting.watch n) := settingOf_digits n small h
    exact ⟨fun h => field 0 (by decide) (by omega), fun h => field 1 (by decide) (by omega),
      fun h => field 2 (by decide) (by omega), fun h => field 3 (by decide) (by omega),
      fun h => field 4 (by decide) (by omega), fun h => field 5 (by decide) (by omega),
      fun h => field 6 (by decide) (by omega), fun h => field 7 (by decide) (by omega),
      fun h => field 8 (by decide) (by omega), fun h => field 9 (by decide) (by omega),
      settingOf_gap n, settingOf_outside⟩

end Sys2Proof.Machine
end

section
/-! PROOFS. What a SET does beside its value. -/

namespace Sys2Proof.Machine

/-! ### The SETs with an effect (R105, R106, R33, R179) -/

section
variable {c : Instr} {id : Byte} {v : Word} {s : State} {x : Setting} (row : c.setOf = some (id, v))
  (known : settingOf id = some x) (frame : s.link.frame = some { taken := none })
  (h1 : s.gate.opState ≠ .recovering) (h2 : s.gate.opState ≠ .formatting) (accepted : x.accepts v = true)
include row known frame h1 h2 accepted

/-- Where storing the value held has no effect either, a SET is its store and effect in every case. -/
theorem exec_set_effect (same : x.read s = v → settingEffect x s (x.store v s) = s) :
    exec c s = .next ((settingEffect x s (x.store v s)).answered 3 .done []) := by
  by_cases held : x.read s = v
  · rw [same held]
    exact exec_set_same x row known frame h1 h2 accepted held
  · exact exec_set_changes x row known frame h1 h2 accepted held

end

/-! ### FREEZE MASK -/

theorem freezeMask_store_same {s : State} {v : Word} (small : v.toNat ≤ 3)
    (held : Setting.freezeMask.read s = v) : Setting.freezeMask.store v s = s := by
  obtain ⟨pfail, fault⟩ := (freezeMask_read_iff s v small).1 held
  rw [show Setting.freezeMask.store v s = s.setSettings { s.settings with
    pfailEnabled := v.getLsbD 0, faultEnabled := v.getLsbD 1 } from rfl, ← pfail, ← fault]
  rfl

/-- A line gives no trigger where it was enabled before, is not enabled now, or is not ACTIVE (R106). -/
theorem maskTrigger_false {before after active : Bool}
    (h : before = true ∨ after = false ∨ active = false) : (!before && after && active) = false := by
  obtain rfl | rfl | rfl := h <;> simp

theorem maskTrigger_true {before after active : Bool} (off : before = false) (on : after = true)
    (now : active = true) : (!before && after && active) = true := by
  subst off on now
  rfl

section
variable {s : State} {v : Word} (frame : s.link.frame = some { taken := none })
  (h1 : s.gate.opState ≠ .recovering) (h2 : s.gate.opState ≠ .formatting) (small : v.toNat ≤ 3)
include frame h1 h2 small

/-- A SET of the mask ends with the triggers of the lines newly enabled. -/
theorem exec_setFreezeMask {m : State} (stored : m = Setting.freezeMask.store v s)
    {pfail fault : Bool} (hp : (!s.settings.pfailEnabled && v.getLsbD 0 && s.gate.pfail.active) = pfail)
    (hf : (!s.settings.faultEnabled && v.getLsbD 1 && s.gate.fault.active) = fault) :
    exec (.setFreezeMask v) s = .next ((maskTriggers pfail fault m).answered 3 .done []) := by
  subst stored hp hf
  refine exec_set_effect (x := .freezeMask) rfl rfl frame h1 h2 (decide_eq_true small) fun held => ?_
  obtain ⟨pfail, fault⟩ := (freezeMask_read_iff s v small).1 held
  rw [freezeMask_store_same small held]
  simp [settingEffect, maskTriggers]

end

/-! ### FREEZE SCOPE -/

theorem scope_store_same {s : State} {v : Word} (small : v.toNat ≤ 1)
    (held : Setting.scope.read s = v) : Setting.scope.store v s = s := by
  have scope : (if v = 0 then Scope.journaledOnly else .allWrites) = s.settings.scope := by
    cases scope : s.settings.scope <;> simp only [Setting.read, scope] at held <;> subst held <;> rfl
  rw [show Setting.scope.store v s = s.setSettings { s.settings with
    scope := if v = 0 then .journaledOnly else .allWrites } from rfl, scope]
  rfl

theorem gateCovers_iff (s : State) (c : RegionClass) : s.gateCovers c = true ↔
    s.gate.opState = .frozen ∧ (c = .journaled ∨ (c = .direct ∧ s.settings.scope = .allWrites)) := by
  simp [State.gateCovers, State.inScope]

theorem gateCovers_scope_store {s : State} {v : Word} {c : RegionClass}
    (h : s.gate.opState ≠ .frozen ∨ (c ≠ .journaled ∧ (c ≠ .direct ∨ v = 0))) :
    (Setting.scope.store v s).gateCovers c = false := by
  rw [Bool.eq_false_iff, Ne, gateCovers_iff]
  rintro ⟨frozen, covered⟩
  obtain open_ | ⟨journaled, direct⟩ := h
  · exact open_ frozen
  · obtain rfl | ⟨rfl, scope⟩ := covered
    · exact journaled rfl
    · obtain direct | rfl := direct
      · exact direct rfl
      · cases scope

/-- A refusal with the answer of the SET that caused it, seen from the state without either. -/
theorem refuses_answered (cfg : Settings) (a : Addr) (d : Direction) (why : Reason) (tag : Word)
    {s t : State} (ht : t = (refuse a d why tag (s.setSettings cfg)).answered 3 .done []) :
    State.Refuses { s with settings := t.settings, link := t.link } t a d why tag := by
  obtain ⟨⟨cycle, timer, wait, err, data, refusal, counters, restore, work⟩, -, -⟩ :=
    refuse_spec a d why tag (s.setSettings cfg)
  obtain ⟨straps, port, intake, queue, engine, region, gate, -, -, time, mem, pending⟩ := work
  subst ht
  exact ⟨cycle, timer, wait, err, data, refusal, counters, restore, straps, port, intake, queue, engine,
    region, gate, rfl, rfl, time, mem, pending⟩

/-- Settles O53: each SET with an effect is its store and `settingEffect`, whose branches give the effects. -/
theorem setEffects : Obligations.SetEffects := by
  intro s v frame h1 h2
  refine ⟨fun changes => ?polarity, fun m small hm => ⟨fun off on active other => ?pfail,
    fun off on active other => ?fault, fun pfail fault => ?neither⟩, fun c hv scope frozen current waits
    cls direction => ?covers, fun small uncovered => ?uncovered, fun small changes => ?enables,
    fun hv mode => ?level, fun hv mode => ?pulse⟩
  case polarity =>
    obtain ⟨rfl, low⟩ | ⟨rfl, high⟩ := changes
    · exact exec_set_changes .faultPolarity rfl rfl frame h1 h2 rfl (by simp [Setting.read, low])
    · exact exec_set_changes .faultPolarity rfl rfl frame h1 h2 rfl (by simp [Setting.read, high])
  case pfail =>
    subst hm
    exact exec_setFreezeMask frame h1 h2 small rfl (maskTrigger_true off on active)
      (maskTrigger_false other)
  case fault =>
    subst hm
    exact exec_setFreezeMask frame h1 h2 small rfl (maskTrigger_false other)
      (maskTrigger_true off on active)
  case neither =>
    subst hm
    exact exec_setFreezeMask frame h1 h2 small rfl (maskTrigger_false pfail) (maskTrigger_false fault)
  case covers =>
    subst hv
    have held : Setting.scope.read s ≠ 1 := by simp [Setting.read, scope]
    have covers : (Setting.scope.store 1 s).gateCovers c.cls = true :=
      (gateCovers_iff _ _).2 ⟨frozen, .inr ⟨cls, rfl⟩⟩
    have refused : settingEffect .scope s (Setting.scope.store 1 s) =
        refuse c.addr .write .gate c.tag (Setting.scope.store 1 s) := by
      rw [← direction]
      exact (refuseWaiting_spec (Setting.scope.store 1 s)).1 c current waits covers
    refine ⟨_, exec_set_changes .scope rfl rfl frame h1 h2 rfl held, ?_,
      refuses_answered _ c.addr .write .gate c.tag (congrArg (State.answered · 3 .done []) refused)⟩
    rw [refused]
    rfl
  case uncovered =>
    have still : refuseWaiting (Setting.scope.store v s) = Setting.scope.store v s := by
      refine (refuseWaiting_spec _).2 fun c current => ?_
      obtain phase | gate := uncovered c current
      · exact .inl phase
      · exact .inr (gateCovers_scope_store gate)
    have stored : settingEffect .scope s (Setting.scope.store v s) = Setting.scope.store v s := still
    have answer := exec_set_effect (c := .setFreezeScope v) (x := .scope) rfl rfl frame h1 h2
      (decide_eq_true small) fun held => stored.trans (scope_store_same small held)
    rw [answer, stored]
    rfl
  case enables =>
    have answer := exec_set_changes (c := .setEventEnables v) .enables rfl rfl frame h1 h2
      (decide_eq_true small) (Ne.symm changes)
    refine answer.trans ?_
    simp only [settingEffect, Setting.store, Setting.storeIn, Events.enablesSet]
    cases s.settings.attnMode <;> rfl
  case level =>
    subst hv
    have held : Setting.attnMode.read s ≠ 0 := by simp [Setting.read, mode]
    exact exec_set_changes .attnMode rfl rfl frame h1 h2 rfl held
  case pulse =>
    subst hv
    have held : Setting.attnMode.read s ≠ 1 := by simp [Setting.read, mode]
    exact exec_set_changes .attnMode rfl rfl frame h1 h2 rfl held

end Sys2Proof.Machine
end

section
/-! PROOFS. COMMIT, the claim of a pending commit, and LOAD TABLE, by the first step that fits. -/

namespace Sys2Proof.Machine

/-! ### The steps of a commit request (R52) -/

theorem tableReady_iff (s : State) : s.tableReady = true ↔ ∃ x, s.region.state = .ready x := by
  cases state : s.region.state <;> simp [State.tableReady, state]

theorem commitBarred_iff (s : State) : s.commitBarred = true ↔ s.CommitBarred := by
  have limited : s.commitBarred = true ↔ s.gate.causes.anchor = true ∨ s.gate.causes.exhausted = true ∨
      s.tokenLimit.toNat < s.intake.group.toNat := by
    rw [State.commitBarred, Bool.or_eq_true, Bool.or_eq_true, decide_eq_true_eq, or_assoc, BitVec.lt_def]
  have limit := congrArg (fun limit : GroupNo => s.gate.causes.anchor = true ∨
    s.gate.causes.exhausted = true ∨ limit.toNat < s.intake.group.toNat) (tokenLimit_eq s)
  exact limited.trans (iff_of_eq limit)

theorem not_hasWork_iff (s : State) : s.intake.dirty = false ∧ s.tableReady = false ↔ ¬ s.HasWork := by
  rw [State.HasWork, not_or, Bool.not_eq_true, Bool.not_eq_true]

theorem commitStep_eq (s : State) : s.commitStep =
    (if s.gate.opState = .recovering ∨ s.gate.opState = .formatting then .refusedBy .busy
      else if s.gate.opState = .unformatted then .refusedBy .unformatted
      else if s.CommitBarred then .refusedBy .notPermitted
      else if s.intake.pendingCommit = true then .merged
      else if ¬ s.HasWork then .nothing
      else if 16 ≤ s.queue.entries.length then .held
      else .token) := by
  have space : (if s.hasSpace = true then CommitStep.token else .held) =
      if 16 ≤ s.queue.entries.length then .held else .token := by
    by_cases full : 16 ≤ s.queue.entries.length
    · rw [if_pos full, if_neg (mt (hasSpace_iff s).1 (Nat.not_lt.2 full))]
    · rw [if_neg full, if_pos ((hasSpace_iff s).2 (Nat.not_le.1 full))]
  rw [State.commitStep]
  exact if_congr Iff.rfl rfl (if_congr Iff.rfl rfl (if_congr (commitBarred_iff s) rfl
    (if_congr Iff.rfl rfl (if_congr (not_hasWork_iff s) rfl space))))

section
variable {s : State} (h : s.gate.opState = .running ∨ s.gate.opState = .frozen)
include h

theorem commitStep_barred (barred : s.CommitBarred) : s.commitStep = .refusedBy .notPermitted := by
  obtain h | h := h <;> simp only [commitStep_eq, h, reduceCtorEq, false_or, if_false, if_pos barred]

variable (allowed : ¬ s.CommitBarred)
include allowed

theorem commitStep_merged (pending : s.intake.pendingCommit = true) : s.commitStep = .merged := by
  obtain h | h := h <;>
    simp only [commitStep_eq, h, reduceCtorEq, false_or, if_false, if_neg allowed, if_pos pending]

variable (free : s.intake.pendingCommit = false)
include free

theorem commitStep_nothing (idle : ¬ s.HasWork) : s.commitStep = .nothing := by
  obtain h | h := h <;>
    simp only [commitStep_eq, h, reduceCtorEq, false_or, if_false, if_neg allowed, free,
      Bool.false_eq_true, if_pos idle]

variable (work : s.HasWork)
include work

theorem commitStep_token (space : s.queue.entries.length < 16) : s.commitStep = .token := by
  obtain h | h := h <;>
    simp only [commitStep_eq, h, reduceCtorEq, false_or, if_false, if_neg allowed, free,
      Bool.false_eq_true, if_neg (not_not_intro work), if_neg (Nat.not_le.2 space)]

theorem commitStep_held (full : 16 ≤ s.queue.entries.length) : s.commitStep = .held := by
  obtain h | h := h <;>
    simp only [commitStep_eq, h, reduceCtorEq, false_or, if_false, if_neg allowed, free,
      Bool.false_eq_true, if_neg (not_not_intro work), if_pos full]

end

theorem commitStep_unformatted {s : State} (h : s.gate.opState = .unformatted) :
    s.commitStep = .refusedBy .unformatted := by
  simp only [commitStep_eq, h, reduceCtorEq, or_self, if_false, if_true]

theorem takeCommit_token {s : State} (h : s.commitStep = .token) : takeCommit s = makeToken s := by
  simp only [takeCommit, h]

theorem takeCommit_held {s : State} (h : s.commitStep = .held) :
    takeCommit s = { s with intake := { s.intake with pendingCommit := true } } := by
  simp only [takeCommit, h]
  rfl

theorem takeCommit_other {s : State} (token : s.commitStep ≠ .token) (held : s.commitStep ≠ .held) :
    takeCommit s = s := by
  obtain same | ⟨step, -⟩ | ⟨step, -⟩ := takeCommit_cases s
  · exact same
  · exact absurd step held
  · exact absurd step token

/-! ### COMMIT behind the claim of a waiting write (R43) -/

@[simp] theorem claimFirst_pendingCommit (s : State) :
    (claimFirst s).intake.pendingCommit = s.intake.pendingCommit := by
  obtain same | ⟨c, -, -, e⟩ := claimFirst_cases s
  · rw [same]
  · rw [e]
    obtain ⟨why, tag, refused⟩ | ⟨-, -, accepted⟩ := claimEntry_cases c s
    · rw [refused, (refuse_keeps _ _ _ _ s).2.2.1]
    · rw [accepted]
      cases (s.lookup c.addr).1 <;> rfl

section
variable {s u : State} (frame : s.link.frame = some { taken := none })
  (h1 : s.gate.opState ≠ .recovering) (h2 : s.gate.opState ≠ .formatting) (claim : u = claimFirst s)
include frame h1 h2 claim

theorem exec_behindClaim_done {c : Instr} {n : Nat} {owner : State → Answer} {t : State}
    (taking : takingOf c = some (n, unlessBusy (behindClaim owner))) (answer : owner u = plain .done t) :
    exec c s = .next (t.answered n .done []) := by
  subst claim
  refine exec_of_plain taking frame ?_
  rw [unlessBusy_free h1 h2, behindClaim_of_done (by rw [answer]; rfl), answer]

theorem exec_behindClaim_refused {c : Instr} {n : Nat} {owner : State → Answer} {t : State} {r : Result}
    (taking : takingOf c = some (n, unlessBusy (behindClaim owner))) (answer : owner u = plain r t)
    (refused : r ≠ .done) : exec c s = .next (s.answered n r []) := by
  subst claim
  refine exec_of_plain taking frame ?_
  rw [unlessBusy_free h1 h2, behindClaim_of_not_done (by rw [answer]; exact refused), answer]
  rfl

theorem exec_commit_done {step : CommitStep} (hstep : u.commitStep = step) (done : step.result = .done) :
    exec .commit s = .next ((takeCommit u).answered 0 .done []) := by
  subst hstep
  exact exec_behindClaim_done frame h1 h2 claim (owner := answerCommit) rfl
    (congrArg (plain · (takeCommit u)) done)

theorem exec_commit_refused {step : CommitStep} (hstep : u.commitStep = step)
    (refused : step.result ≠ .done) : exec .commit s = .next (s.answered 0 step.result []) := by
  subst hstep
  exact exec_behindClaim_refused frame h1 h2 claim (owner := answerCommit) rfl rfl refused

end

/-! ### The claim of a pending commit (R54) -/

theorem exec_pendingCommitClaim (s : State) : exec .pendingCommitClaim s =
    .next (if s.intake.pendingCommit = true ∧ s.hasSpace = true then
      if s.claimMakesToken = true then makeToken (s.setIntake { s.intake with pendingCommit := false })
      else s.setIntake { s.intake with pendingCommit := false, auto := s.restartedAuto }
    else s) := rfl

theorem claimMakesToken_iff (s : State) :
    s.claimMakesToken = true ↔ ¬ s.CommitBarred ∧ s.HasWork := by
  rw [State.claimMakesToken, Bool.and_eq_true, Bool.or_eq_true, Bool.not_eq_true', Bool.eq_false_iff, Ne,
    commitBarred_iff]

/-- Settles O54: the steps by `commitStep_eq`, COMMIT by its answer behind the claim, and the claim of a pending
commit by what is still to be done for it. -/
theorem commitSteps : Obligations.CommitSteps := by
  refine ⟨fun s => ⟨tableReady_iff s, commitStep_eq s, takeCommit_token, makeToken_spec s, takeCommit_held,
      takeCommit_other⟩, fun s u frame claim => ?commit, fun s => ⟨fun pending space => ?claims,
      fun idle => ?still⟩⟩
  case commit =>
    have hu : u = claimFirst s := (Host.Outcome.next.inj claim).symm
    have gate : u.gate = s.gate := by rw [hu]; simp
    refine ⟨fun mode => ?_, fun mode => ?_⟩
    · exact exec_commit_refused frame (by simp [mode]) (by simp [mode]) hu
        (commitStep_unformatted (gate.symm ▸ mode)) (by decide)
    · have h1 : s.gate.opState ≠ .recovering := by obtain h | h := mode <;> simp [h]
      have h2 : s.gate.opState ≠ .formatting := by obtain h | h := mode <;> simp [h]
      have modeU : u.gate.opState = .running ∨ u.gate.opState = .frozen := gate.symm ▸ mode
      refine ⟨fun barred => ?_, fun allowed pending => ?_, fun allowed free idle => ?_,
        fun allowed free work space => ?_, fun allowed free work full => ?_⟩
      · exact exec_commit_refused frame h1 h2 hu (commitStep_barred modeU barred) (by decide)
      · have step : u.commitStep = .merged := commitStep_merged modeU allowed pending
        have same : u = s := by
          rw [hu, claimFirst_pendingCommit] at pending
          rw [hu, claimFirst_none s (.inr (.inr pending))]
        have done := exec_commit_done frame h1 h2 hu step rfl
        rwa [takeCommit_other (by simp [step]) (by simp [step]), same] at done
      · exact exec_commit_refused frame h1 h2 hu (commitStep_nothing modeU allowed free idle) (by decide)
      · have step : u.commitStep = .token := commitStep_token modeU allowed free work space
        refine ⟨makeToken u, ?_, makeToken_spec u free⟩
        rw [← takeCommit_token step]
        exact exec_commit_done frame h1 h2 hu step rfl
      · have step : u.commitStep = .held := commitStep_held modeU allowed free work full
        rw [← takeCommit_held step]
        exact exec_commit_done frame h1 h2 hu step rfl
  case claims =>
    have claimed := exec_pendingCommitClaim s
    rw [if_pos ⟨pending, (hasSpace_iff s).2 space⟩] at claimed
    refine ⟨fun allowed work => ?_, fun barred => ?_⟩
    · rw [if_pos ((claimMakesToken_iff s).2 ⟨allowed, work⟩)] at claimed
      exact ⟨_, claimed, makeToken_spec (s.setIntake { s.intake with pendingCommit := false }) rfl⟩
    · have none_ : ¬ s.claimMakesToken = true := by
        rw [claimMakesToken_iff]
        exact fun claims => barred.elim claims.1 (· claims.2)
      rw [if_neg none_] at claimed
      exact claimed
  case still =>
    have none_ : ¬ (s.intake.pendingCommit = true ∧ s.hasSpace = true) := by
      rw [hasSpace_iff]
      rintro ⟨pending, space⟩
      obtain free | full := idle
      · exact Bool.false_ne_true (free.symm.trans pending)
      · omega
    rw [exec_pendingCommitClaim, if_neg none_]

/-! ### LOAD TABLE (R88) -/

theorem baseRefused_iff (s : State) (base : Long) : s.baseRefused base = true ↔
    base.toNat % 8 ≠ 0 ∨ s.top - 32 ≤ base.toNat ∨
      (s.engine.durable.slotCount ≠ 0 ∧ s.engine.durable.windowBase.toNat ≤ base.toNat ∧
        base.toNat ≤
          s.engine.durable.windowBase.toNat + 16 * s.engine.durable.slotCount.toNat - 1) := by
  have window : s.window.any (fun w => w.holds base.toNat) = true ↔
      s.engine.durable.slotCount ≠ 0 ∧ s.engine.durable.windowBase.toNat ≤ base.toNat ∧
        base.toNat ≤
          s.engine.durable.windowBase.toNat + 16 * s.engine.durable.slotCount.toNat - 1 := by
    rw [Option.any_eq_true]
    constructor
    · rintro ⟨r, window, inside⟩
      obtain ⟨slots, rfl⟩ := (window_eq_some s r).1 window
      exact ⟨slots, (holds_iff _ _).1 inside⟩
    · rintro ⟨slots, inside⟩
      exact ⟨_, (window_eq_some s _).2 ⟨slots, rfl⟩, (holds_iff _ _).2 inside⟩
  rw [State.baseRefused, Bool.or_eq_true, Bool.or_eq_true, decide_eq_true_eq, decide_eq_true_eq, window,
    or_assoc]
  rfl

theorem claimFirst_baseRefused (s : State) (base : Long) :
    (claimFirst s).baseRefused base = s.baseRefused base := by
  simp [State.baseRefused, State.anchorAddr, State.top, State.window]

section
variable {s : State} {b : BitVec 24}

theorem answerLoadTable_unformatted (h : s.gate.opState = .unformatted) :
    answerLoadTable b s = plain .unformatted s := if_pos h

variable (formatted : s.gate.opState ≠ .unformatted)
include formatted

theorem answerLoadTable_anchor (anchor : s.gate.causes.anchor = true) :
    answerLoadTable b s = plain .notPermitted s := by
  rw [answerLoadTable, if_neg formatted, if_pos anchor]

variable (whole : s.gate.causes.anchor = false)
include whole

theorem answerLoadTable_base (bad : s.baseRefused (b.zeroExtend 32) = true) :
    answerLoadTable b s = plain .badReq s := by
  simp only [answerLoadTable, if_neg formatted, whole, bad, Bool.false_eq_true, if_false, if_true]

variable (good : s.baseRefused (b.zeroExtend 32) = false)
include good

theorem answerLoadTable_busy (busy : (∃ p, s.region.state = .pending p) ∨
      16 ≤ s.queue.entries.length ∨ s.intake.pendingCommit = true) :
    answerLoadTable b s = plain .busy s := by
  simp only [answerLoadTable, if_neg formatted, whole, good, Bool.false_eq_true, if_false]
  cases state : s.region.state with
  | pending p => rfl
  | none | ready x =>
    refine if_neg ?_
    rintro ⟨space, free⟩
    obtain ⟨p, pending⟩ | full | pending := busy
    · exact absurd (state.symm.trans pending) (by simp)
    · exact absurd ((hasSpace_iff s).1 space) (Nat.not_lt.2 full)
    · exact Bool.false_ne_true (free.symm.trans pending)

theorem answerLoadTable_queues (free : s.region.state = .none ∨ ∃ x, s.region.state = .ready x)
    (space : s.queue.entries.length < 16) (noCommit : s.intake.pendingCommit = false) :
    answerLoadTable b s = plain .done (appendEntry (.tableToken (b.zeroExtend 32))
      (s.setRegion { s.region with state := .pending (b.zeroExtend 32) })) := by
  simp only [answerLoadTable, if_neg formatted, whole, good, Bool.false_eq_true, if_false]
  obtain state | ⟨x, state⟩ := free <;> rw [state] <;>
    exact if_pos ⟨(hasSpace_iff s).2 space, noCommit⟩

end

/-- Settles O55: the answers of the Region Map in the order of R88, behind the claim of a waiting write. -/
theorem loadTableSteps : Obligations.LoadTableSteps := by
  intro s u b base bad frame claim hbase hbad
  subst hbase
  have hu : u = claimFirst s := (Host.Outcome.next.inj claim).symm
  have gate : u.gate = s.gate := by rw [hu]; simp
  have region : u.region = s.region := by rw [hu]; simp
  have refused : bad ↔ u.baseRefused (b.zeroExtend 32) = true := by
    rw [hbad, hu, claimFirst_baseRefused, baseRefused_iff]
  refine ⟨fun busy => exec_of_plain (c := .loadTable b) rfl frame (unlessBusy_busy busy _),
    fun mode => ?_, fun mode => ?_⟩
  · exact exec_behindClaim_refused frame (by simp [mode]) (by simp [mode]) hu
      (c := .loadTable b) rfl (answerLoadTable_unformatted (gate.symm ▸ mode)) (by decide)
  · have h1 : s.gate.opState ≠ .recovering := by obtain h | h := mode <;> simp [h]
    have h2 : s.gate.opState ≠ .formatting := by obtain h | h := mode <;> simp [h]
    have formatted : u.gate.opState ≠ .unformatted := by obtain h | h := mode <;> simp [gate, h]
    refine ⟨fun anchor => ?_, fun whole isBad => ?_, fun whole good busy => ?_,
      fun whole good free space noCommit => ?_⟩
    · exact exec_behindClaim_refused frame h1 h2 hu (c := .loadTable b) rfl
        (answerLoadTable_anchor formatted (gate.symm ▸ anchor)) (by decide)
    · exact exec_behindClaim_refused frame h1 h2 hu (c := .loadTable b) rfl
        (answerLoadTable_base formatted (gate.symm ▸ whole) (refused.1 isBad)) (by decide)
    · exact exec_behindClaim_refused frame h1 h2 hu (c := .loadTable b) rfl
        (answerLoadTable_busy formatted (gate.symm ▸ whole) (Bool.eq_false_iff.2 (mt refused.2 good))
          (region.symm ▸ busy)) (by decide)
    · exact exec_behindClaim_done frame h1 h2 hu (c := .loadTable b) rfl
        (answerLoadTable_queues formatted (gate.symm ▸ whole) (Bool.eq_false_iff.2 (mt refused.2 good))
          (region.symm ▸ free) space noCommit)

end Sys2Proof.Machine
end

section
/-! PROOFS. What a trigger adds, closes and takes. -/

namespace Sys2Proof.Machine

/-! ### A trigger while the gate is open (R43, R109, R110) -/

theorem waitsInScope_iff (s : State) : s.waitsInScope = true ↔
    ∃ c, s.up.cycle = some c ∧ c.phase = .waitingWrite ∧
      (c.cls = .journaled ∨ (c.cls = .direct ∧ s.settings.scope = .allWrites)) := by
  cases current : s.up.cycle <;> simp [State.waitsInScope, State.inScope, current]

/-- No claim of a waiting write comes before the commit request of a trigger's action. -/
def State.Unclaimed (s : State) (a : Action) : Prop :=
  a ≠ .sealGroup ∨ s.waitsInScope = true ∨ claimFirst s = s

/-- A trigger's cause and the claim of a waiting write do not meet. -/
theorem claimFirst_addCause (cause : Cause) (s : State) :
    claimFirst (addCause cause s) = addCause cause (claimFirst s) := by
  have claimed (c : Cycle) : claimEntry c (addCause cause s) = addCause cause (claimEntry c s) := by
    have accepted (cls : RegionClass) : acceptWrite c.addr c.data c.lanes cls (addCause cause s) =
        addCause cause (acceptWrite c.addr c.data c.lanes cls s) := by
      cases cls <;> rfl
    have unfolded : claimEntry c (addCause cause s) =
        if s.refusesState then addCause cause (refuse c.addr .write .state 0 s)
        else if (s.lookup c.addr).1.refusesWrites then
          addCause cause (refuse c.addr .write .cls (s.lookup c.addr).2 s)
        else if s.gateRefuses (s.lookup c.addr).1 then
          addCause cause (refuse c.addr .write .gate (s.lookup c.addr).2 s)
        else acceptWrite c.addr c.data c.lanes (s.lookup c.addr).1 (addCause cause s) := rfl
    rw [unfolded, accepted]
    unfold claimEntry
    dsimp only
    split_ifs <;> rfl
  have same : (addCause cause s).writeMayClaim = s.writeMayClaim := rfl
  cases current : s.up.cycle with
  | none => simp [claimFirst, current]
  | some c =>
    by_cases claims : c.phase = .waitingWrite ∧ s.writeMayClaim = true
    · simp [claimFirst, current, claims, same, claimed]
    · simp only [claimFirst, addCause_keeps, current, same, if_neg claims]

/-- The part behind a trigger's cause and what its action does while the gate is open. -/
def opened (cause : Cause) (a : Action) (s : State) : State := actOpen a (addCause cause s)

/-- The action SEAL finds the claim of a waiting write outside the scope made. -/
theorem opened_claimFirst {s : State} (outside : s.waitsInScope = false) (cause : Cause) :
    opened cause .sealGroup (claimFirst s) = opened cause .sealGroup s := by
  have left : opened cause .sealGroup (claimFirst s) = takeCommit (addCause cause (claimFirst s)) := by
    simp only [opened, actOpen, claimFirst_addCause, claimFirst_settled, ite_self]
  have right : opened cause .sealGroup s = takeCommit (claimFirst (addCause cause s)) := by
    rw [opened, actOpen, show (addCause cause s).waitsInScope = false from outside]
    rfl
  rw [left, right, claimFirst_addCause]

section
variable {s : State} {a : Action} (unclaimed : s.Unclaimed a) (cause : Cause)
include unclaimed

theorem opened_eq :
    opened cause a s = if a = .sealGroup then takeCommit (addCause cause s) else addCause cause s := by
  cases a with
  | none | stop | rollback => rfl
  | sealGroup =>
    have inScope : (addCause cause s).waitsInScope = s.waitsInScope := rfl
    rw [opened, actOpen, if_pos rfl, inScope]
    obtain other | waits | none_ := unclaimed
    · exact absurd rfl other
    · rw [if_pos waits]
    · rw [claimFirst_addCause, none_, ite_self]

theorem opened_keeps : (opened cause a s).up = s.up ∧ (opened cause a s).events = s.events := by
  rw [opened_eq unclaimed]
  split <;> simp

theorem opened_sealed (taken : a = .sealGroup) (anchor : (s.gate.causes.add cause).anchor = false)
    (exhausted : (s.gate.causes.add cause).exhausted = false) :
    (opened cause a s).queue = (takeCommit s).queue ∧
    (opened cause a s).intake = (takeCommit s).intake ∧
    (opened cause a s).region = (takeCommit s).region := by
  have notAnchor : cause ≠ .anchor := by
    rintro rfl
    cases anchor
  have notExhausted : cause ≠ .exhausted := by
    rintro rfl
    cases exhausted
  rw [opened_eq unclaimed, if_pos taken]
  exact addCause_takeCommit cause s notAnchor notExhausted

theorem opened_barred (taken : a = .sealGroup) (mode : s.gate.opState = .running ∨ s.gate.opState = .frozen)
    (barred : (s.gate.causes.add cause).anchor = true ∨ (s.gate.causes.add cause).exhausted = true) :
    opened cause a s = addCause cause s := by
  have step : (addCause cause s).commitStep = .refusedBy .notPermitted :=
    commitStep_barred mode (barred.imp_right .inl)
  rw [opened_eq unclaimed, if_pos taken, takeCommit_other (by simp [step]) (by simp [step])]

end

theorem opened_other {a : Action} (other : a ≠ .sealGroup) (cause : Cause) (s : State) :
    opened cause a s = addCause cause s := by
  rw [opened_eq (.inl other), if_neg other]

@[simp] theorem opened_gate (cause : Cause) (a : Action) (s : State) :
    (opened cause a s).gate = { s.gate with causes := s.gate.causes.add cause } := by
  rw [opened, (actOpen_keeps a _).2.2.2.1, addCause_gate]

@[simp] theorem opened_engine (cause : Cause) (a : Action) (s : State) :
    (opened cause a s).engine = s.engine := by
  simp [opened]

/-! ### The closing of the gate (R109, R33 item 2) -/

theorem refuses_congr {s s' t t' : State} {a : Addr} {d : Direction} {why : Reason} {tag : Word}
    (h : State.Refuses s' t' a d why tag) (up : t.up = t'.up) (events : t.events = t'.events)
    (before : s'.events = s.events) (time : s'.time = s.time) (work : s.SameWork t) :
    State.Refuses s t a d why tag := by
  obtain ⟨cycle, timer, wait, err, data, refusal, counters, restore, -⟩ := h
  rw [State.Refuses, up, events, ← before, ← time]
  exact ⟨cycle, timer, wait, err, data, refusal, counters, restore, work⟩

theorem flagsGain_congr {s s' t t' : State} {f : Event → Bool} (h : State.FlagsGain s' t' f)
    (events : t.events = t'.events) (before : s'.events = s.events) : State.FlagsGain s t f := fun e => by
  rw [State.flagged, State.flagged, events, ← before]
  exact h e

section
variable {s : State} {c : Cycle}

theorem closeGate_covered (current : s.up.cycle = some c) (waits : c.phase = .waitingWrite)
    (covered : c.cls = .journaled ∨ (c.cls = .direct ∧ s.settings.scope = .allWrites)) :
    State.Refuses { s with gate := (closeGate s).gate } (closeGate s) c.addr c.direction .gate c.tag ∧
    s.FlagsGain (closeGate s) (fun e => decide (e = .froze) || decide (e = .refused)) := by
  have covers : (raise .froze (setOpState .frozen s)).gateCovers c.cls = true :=
    (gateCovers_iff _ _).2 ⟨rfl, covered⟩
  have refused : closeGate s = refuse c.addr c.direction .gate c.tag (raise .froze (setOpState .frozen s)) :=
    (refuseWaiting_spec (raise .froze (setOpState .frozen s))).1 c current waits covers
  obtain ⟨refuses, -, flags⟩ := refuse_spec c.addr c.direction .gate c.tag (raise .froze (setOpState .frozen s))
  rw [← refused] at refuses flags
  have events := raise_touches .froze (setOpState .frozen s)
  obtain ⟨cycle, timer, wait, err, data, refusal, counters, restore, -⟩ := refuses
  rw [events] at counters restore
  refine ⟨⟨cycle, timer, wait, err, data, refusal, counters, restore, ?_⟩, fun e => ?_⟩
  · simp [State.SameWork]
  · rw [flags e, raise_flagged]
    exact Bool.or_assoc _ _ _

theorem closeGate_uncovered (h : ∀ c, s.up.cycle = some c → c.phase ≠ .waitingWrite ∨
      (c.cls ≠ .journaled ∧ (c.cls ≠ .direct ∨ s.settings.scope = .journaledOnly))) :
    closeGate s = raise .froze (setOpState .frozen s) := by
  refine (refuseWaiting_spec _).2 fun c current => (h c current).imp_right fun ⟨journaled, direct⟩ => ?_
  rw [Bool.eq_false_iff, Ne, gateCovers_iff]
  rintro ⟨-, covered | ⟨cls, scope⟩⟩
  · exact journaled covered
  · obtain direct | only := direct
    · exact direct cls
    · exact absurd (scope.symm.trans only) (by decide)

end

theorem closeGate_froze (s : State) : (closeGate s).flagged .froze = true :=
  refuseWaiting_flags _ _ (by simp)

/-! ### A trigger whose action is taken -/

theorem setLevel_actStopped_frz (cause : Cause) (a : Action) (s : State) :
    (setLevel a (actStopped cause a s)).gate.frz = s.gate.frz := by
  rw [setLevel_gate, actStopped_gate]

/-- An action taken acts on the state that the closing of the gate leaves; in FROZEN the gate stands closed. -/
theorem trigger_opened {s : State} {a : Action} (takes : s.TakesAction a) (cause : Cause) :
    ∃ x : State, trigger cause a s = setLevel a (actStopped cause a x) ∧
      x.gate.pfail = s.gate.pfail ∧ x.gate.fault = s.gate.fault ∧ x.gate.order = s.gate.order ∧
      x.engine = s.engine ∧ x.queue = (opened cause a s).queue ∧ x.intake = (opened cause a s).intake ∧
      x.region = (opened cause a s).region ∧
      (s.gate.opState = .running → x = closeGate (opened cause a s)) ∧
      (s.gate.opState = .frozen → x = opened cause a s) := by
  obtain running | ⟨frozen, stronger⟩ := takes
  · exact ⟨closeGate (opened cause a s), trigger_of_running running cause a, by simp [closeGate_gate],
      by simp [closeGate_gate], by simp [closeGate_gate], by simp, by simp, by simp, by simp,
      fun _ => rfl, by simp [running]⟩
  · exact ⟨opened cause a s, trigger_of_stronger frozen cause stronger, by simp, by simp, by simp, by simp,
      rfl, rfl, rfl, by simp [frozen], fun _ => rfl⟩

theorem takesAction_or {s : State} (mode : s.gate.opState = .running ∨ s.gate.opState = .frozen) (a : Action) :
    s.TakesAction a ∨ (s.gate.opState = .frozen ∧ ¬ s.gate.level.strength < a.strength) := by
  obtain running | frozen := mode
  · exact .inl (.inl running)
  · by_cases stronger : s.gate.level.strength < a.strength
    · exact .inl (.inr ⟨frozen, stronger⟩)
    · exact .inr ⟨frozen, stronger⟩

section
variable {s : State} {a : Action} (cause : Cause)

/-- What a trigger leaves alone, whatever its action is. -/
theorem trigger_leaves (mode : s.gate.opState = .running ∨ s.gate.opState = .frozen) :
    (trigger cause a s).gate.pfail = s.gate.pfail ∧ (trigger cause a s).gate.fault = s.gate.fault ∧
    (trigger cause a s).engine.work = s.engine.work ∧ (trigger cause a s).engine.closed = s.engine.closed ∧
    (trigger cause a s).engine.count = s.engine.count ∧ (trigger cause a s).engine.chain = s.engine.chain ∧
    (trigger cause a s).engine.durable = s.engine.durable := by
  obtain takes | ⟨frozen, weaker⟩ := takesAction_or mode a
  · obtain ⟨x, e, pfail, fault, order, engine, queue, intake, region, -, -⟩ := trigger_opened takes cause
    have untouched : a ≠ .sealGroup → x.queue = s.queue ∧ x.intake = s.intake ∧ x.region = s.region := by
      intro other
      rw [queue, intake, region, opened_other other]
      simp
    obtain ⟨gate, -, -, -, work, closed, count_, chain, durable, -⟩ :=
      setLevel_actStopped_spec cause a x s untouched engine order
    rw [← e] at gate work closed count_ chain durable
    refine ⟨?_, ?_, work, closed, count_, chain, durable⟩
    · rw [gate, ← pfail]
    · rw [gate, ← fault]
  · rw [trigger_of_not_stronger frozen cause weaker]
    exact ⟨rfl, rfl, rfl, rfl, rfl, rfl, rfl⟩

/-- What a trigger does by its action where it is taken (R108, R110, R111, R112). -/
theorem trigger_action (takes : s.TakesAction a) :
    (trigger cause a s).gate.level = a ∧
    (a = .none ∨ a = .sealGroup → (trigger cause a s).queue = (opened cause a s).queue ∧
      (trigger cause a s).intake = (opened cause a s).intake ∧
      (trigger cause a s).region = (opened cause a s).region ∧ (trigger cause a s).engine = s.engine ∧
      (trigger cause a s).gate.order = s.gate.order) ∧
    (a = .stop ∨ a = .rollback → s.Stops (trigger cause a s) ∧ (trigger cause a s).region = s.region) ∧
    (a = .stop → (trigger cause a s).gate.order = s.gate.order) ∧
    (a = .rollback → (trigger cause a s).gate.order = if s.gate.order ≠ none ∨ s.rollingBack = true then
      s.gate.order else some cause.origin) := by
  obtain ⟨x, e, -, -, order, engine, queue, intake, region, -, -⟩ := trigger_opened takes cause
  have untouched : a ≠ .sealGroup → x.queue = s.queue ∧ x.intake = s.intake ∧ x.region = s.region := by
    intro other
    rw [queue, intake, region, opened_other other]
    simp
  obtain ⟨gate, -, -, region', -, -, -, -, -, open_, stops, stop, rollback⟩ :=
    setLevel_actStopped_spec cause a x s untouched engine order
  rw [← e] at gate region' open_ stops stop rollback
  refine ⟨by rw [gate], fun kind => ?_, fun kind => ⟨stops kind, ?_⟩, stop, rollback⟩
  · obtain ⟨queue', intake', engine', order'⟩ := open_ kind
    exact ⟨queue'.trans queue, intake'.trans intake, region'.trans region, engine', order'⟩
  · have other : a ≠ .sealGroup := by rintro rfl; simp at kind
    exact region'.trans (untouched other).2.2

/-- In RUNNING a trigger's pins and events are those that the closing of the gate leaves. -/
theorem trigger_in_running (running : s.gate.opState = .running) :
    (trigger cause a s).up = (closeGate (opened cause a s)).up ∧
    (trigger cause a s).events = (closeGate (opened cause a s)).events ∧
    (trigger cause a s).gate.frz = true ∧ (trigger cause a s).flagged .froze = true := by
  have e : trigger cause a s = setLevel a (actStopped cause a (closeGate (opened cause a s))) :=
    trigger_of_running running cause a
  have events : (setLevel a (actStopped cause a (closeGate (opened cause a s)))).events =
      (closeGate (opened cause a s)).events := by simp
  rw [e, setLevel_actStopped_frz, closeGate_gate, State.flagged, events]
  exact ⟨by simp, rfl, rfl, closeGate_froze _⟩

variable (unclaimed : s.Unclaimed a)
include unclaimed

/-- In FROZEN a trigger leaves the pins, the events and FRZ alone. -/
theorem trigger_in_frozen (frozen : s.gate.opState = .frozen) :
    (trigger cause a s).up = s.up ∧ (trigger cause a s).events = s.events ∧
    (trigger cause a s).gate.frz = s.gate.frz := by
  by_cases stronger : s.gate.level.strength < a.strength
  · obtain ⟨up, events⟩ := opened_keeps unclaimed cause
    have e : trigger cause a s = setLevel a (actStopped cause a (opened cause a s)) :=
      trigger_of_stronger frozen cause stronger
    rw [e, setLevel_actStopped_frz]
    simp [up, events]
  · rw [trigger_of_not_stronger frozen cause stronger]
    exact ⟨rfl, rfl, rfl⟩

theorem trigger_refuses (running : s.gate.opState = .running) {c : Cycle} (current : s.up.cycle = some c)
    (waits : c.phase = .waitingWrite)
    (covered : c.cls = .journaled ∨ (c.cls = .direct ∧ s.settings.scope = .allWrites))
    {t : State} (ht : t = trigger cause a s) :
    State.Refuses { s with intake := t.intake, queue := t.queue, engine := t.engine
                           region := t.region, gate := t.gate }
      t c.addr c.direction .gate c.tag ∧
    s.FlagsGain t (fun e => decide (e = .froze) || decide (e = .refused)) := by
  obtain ⟨up, events⟩ := opened_keeps unclaimed cause
  obtain ⟨up', events', -, -⟩ := trigger_in_running (a := a) cause running
  have settings : (opened cause a s).settings = s.settings := by simp [opened]
  have time : (opened cause a s).time = s.time := by simp [opened]
  obtain ⟨refuses, flags⟩ := closeGate_covered (s := opened cause a s) (up ▸ current) waits
    (settings ▸ covered)
  subst ht
  exact ⟨refuses_congr refuses up' events' events time (by simp [State.SameWork]),
    flagsGain_congr flags events' events⟩

theorem trigger_only_closes (running : s.gate.opState = .running)
    (h : ∀ c, s.up.cycle = some c → c.phase ≠ .waitingWrite ∨
      (c.cls ≠ .journaled ∧ (c.cls ≠ .direct ∨ s.settings.scope = .journaledOnly)))
    {t : State} (ht : t = trigger cause a s) :
    t.up = s.up ∧ s.FlagsGain t (fun e => decide (e = .froze)) ∧
    t.events.counters = s.events.counters ∧ t.events.refusal = s.events.refusal ∧
    t.events.restore = s.events.restore := by
  obtain ⟨up, events⟩ := opened_keeps unclaimed cause
  obtain ⟨up', events', -, -⟩ := trigger_in_running (a := a) cause running
  have settings : (opened cause a s).settings = s.settings := by simp [opened]
  have closes := closeGate_uncovered (s := opened cause a s) (by rwa [up, settings])
  have raised := raise_touches .froze (setOpState .frozen (opened cause a s))
  rw [closes] at up' events'
  subst ht
  refine ⟨up'.trans (by simpa using up), flagsGain_congr (fun e => raise_flagged _ _ _) events' events, ?_⟩
  rw [events', raised, ← events]
  exact ⟨rfl, rfl, rfl⟩

end

/-- Settles O56: a trigger is its cause, what its action does while the gate is open, the closing of the gate and
what its action does behind it (`trigger_opened`). -/
theorem triggersTaken : Obligations.TriggersTaken := by
  refine ⟨fun c => ⟨rfl, rfl, rfl, rfl, rfl, rfl, rfl, rfl, rfl, ?any⟩, by decide,
    ⟨rfl, rfl, rfl, rfl, rfl, rfl⟩, fun s t cause a covered ht hcovered => ?taken⟩
  case any =>
    simp [CauseSet.any, or_assoc]
  case taken =>
    rw [← waitsInScope_iff] at hcovered
    refine ⟨fun u hseal uncovered claim takes => ?claim, fun unclaimed_ => ?_⟩
    case claim =>
      subst hseal ht
      have hu : u = claimFirst s := (Host.Outcome.next.inj claim).symm
      have gate : u.gate = s.gate := by rw [hu]; simp
      have same : opened cause .sealGroup u = opened cause .sealGroup s := by
        rw [hu]
        exact opened_claimFirst (Bool.eq_false_iff.2 (mt hcovered.2 uncovered)) cause
      obtain running | ⟨frozen, stronger⟩ := takes
      · rw [trigger_of_running running, trigger_of_running (gate.symm ▸ running)]
        exact congrArg (fun x => setLevel _ (actStopped cause _ (closeGate x))) same.symm
      · rw [trigger_of_stronger frozen cause stronger,
          trigger_of_stronger (gate.symm ▸ frozen) cause (gate.symm ▸ stronger)]
        exact congrArg (fun x => setLevel _ (actStopped cause _ x)) same.symm
    have unclaimed : s.Unclaimed a := unclaimed_.imp_right (Or.imp hcovered.1 Host.Outcome.next.inj)
    refine ⟨fun h1 h2 => ?outside, fun frozen weaker => ?weaker, fun mode => ?mode, fun takes => ?takes,
      fun frozen => ?frozen, fun running => ?running⟩
    case outside => exact ht.trans (trigger_outside h1 h2 cause a)
    case weaker => exact ht.trans (trigger_of_not_stronger frozen cause (Nat.not_lt.2 weaker))
    case mode =>
      subst ht
      obtain ⟨frozen, causes, -⟩ := trigger_gate mode cause a
      obtain ⟨pfail, fault, engine⟩ := trigger_leaves (a := a) cause mode
      obtain ⟨straps, port, watch, settings, link, time, mem, -, -⟩ := trigger_keeps cause a s
      exact ⟨frozen, causes, pfail, fault, straps, link, time, mem, port, watch, settings, engine⟩
    case takes =>
      subst ht
      obtain ⟨level, open_, stops, stop, rollback⟩ := trigger_action cause takes
      refine ⟨level, fun kind => ?_, fun kind barred => ?_, fun kind anchor exhausted => ?_, stops, stop,
        rollback⟩
      · obtain ⟨queue, intake, region, engine, order⟩ := open_ (.inl kind)
        rw [opened_other (by simp [kind])] at queue intake region
        exact ⟨queue, intake, engine, region, order⟩
      · obtain ⟨queue, intake, region, engine, order⟩ := open_ (.inr kind)
        rw [opened_barred unclaimed cause kind (takes.imp_right And.left) barred] at queue intake region
        exact ⟨queue, intake, region, engine, order⟩
      · obtain ⟨queue, intake, region, engine, order⟩ := open_ (.inr kind)
        obtain ⟨queue', intake', region'⟩ := opened_sealed unclaimed cause kind anchor exhausted
        exact ⟨queue.trans queue', intake.trans intake', region.trans region', engine, order⟩
    case frozen =>
      subst ht
      exact trigger_in_frozen cause unclaimed frozen
    case running =>
      obtain ⟨-, -, frz, froze⟩ := trigger_in_running (a := a) cause running
      subst ht
      exact ⟨frz, froze, fun c current waits inScope =>
        trigger_refuses cause unclaimed running current waits inScope rfl,
        fun outside => trigger_only_closes cause unclaimed running outside rfl⟩

end Sys2Proof.Machine
end

section
/-! PROOFS. THAW and FORMAT by their rows; events, counts and the clears. -/

namespace Sys2Proof.Machine

/-! ### THAW (R120, R121) -/

theorem lineHolds_pfail (s : State) : s.lineHolds .pfail = true ↔
    s.gate.causes.pfail = true ∧ s.gate.pfail.last = some false := by
  rw [State.lineHolds, Bool.and_eq_true, decide_eq_true_eq]
  rfl

theorem activeLevel_fault (s : State) :
    s.activeLevel .fault = decide (s.settings.faultPolarity = .highActive) := by
  rw [State.activeLevel]
  cases s.settings.faultPolarity <;> rfl

theorem lineHolds_fault (s : State) : s.lineHolds .fault = true ↔
    s.gate.causes.fault = true ∧
      s.gate.fault.last = some (decide (s.settings.faultPolarity = .highActive)) := by
  rw [State.lineHolds, Bool.and_eq_true, decide_eq_true_eq, activeLevel_fault]
  rfl

theorem thawResult_eq (s : State) : s.thawResult =
    (if s.gate.opState ≠ .frozen then .notFrozen
      else if s.gate.order ≠ none ∨ s.rollingBack = true then .busy
      else if s.gate.causes.anchor = true ∨ s.gate.causes.exhausted = true then .notPermitted
      else if s.gate.causes.table = true then .noTable
      else if (s.gate.causes.pfail = true ∧ s.gate.pfail.last = some false) ∨
          (s.gate.causes.fault = true ∧
            s.gate.fault.last = some (decide (s.settings.faultPolarity = .highActive))) then
        .triggerActive
      else if s.engine.abandoned ≠ none then .openGroup
      else .done) := by
  have causes : (s.gate.causes.anchor || s.gate.causes.exhausted) = true ↔
      s.gate.causes.anchor = true ∨ s.gate.causes.exhausted = true := Bool.or_eq_true_iff
  have lines : (s.lineHolds .pfail || s.lineHolds .fault) = true ↔
      (s.gate.causes.pfail = true ∧ s.gate.pfail.last = some false) ∨
        (s.gate.causes.fault = true ∧
          s.gate.fault.last = some (decide (s.settings.faultPolarity = .highActive))) := by
    rw [Bool.or_eq_true, lineHolds_pfail, lineHolds_fault]
  exact if_congr Iff.rfl rfl (if_congr (orderStands_iff s).symm rfl (if_congr causes rfl (if_congr Iff.rfl rfl
    (if_congr lines rfl (if_congr Option.isSome_iff_ne_none rfl rfl)))))

/-- Settles O58: THAW answers the first row of `thawResult_eq` that fits, and DONE opens the gate. -/
theorem thawRows : Obligations.ThawRows := by
  intro s r frame hr
  by_cases busy : s.gate.opState = .recovering ∨ s.gate.opState = .formatting
  · rw [if_pos busy] at hr
    subst hr
    exact ⟨fun _ => exec_of_plain rfl frame (unlessBusy_busy busy answerThaw), fun done => by cases done⟩
  · rw [if_neg busy, ← thawResult_eq] at hr
    obtain ⟨h1, h2⟩ := not_or.1 busy
    subst hr
    refine ⟨fun other => ?_, fun done => ?_⟩
    · refine exec_of_plain (c := .thaw) rfl frame ?_
      rw [unlessBusy_free h1 h2, answerThaw, if_neg other]
    · refine exec_of_plain (c := .thaw) rfl frame ?_
      rw [unlessBusy_free h1 h2, answerThaw, if_pos done]
      rfl

/-! ### FORMAT (R153 to R155) -/

theorem formatPermitted_iff (s : State) : s.formatPermitted = true ↔
    s.gate.opState = .unformatted ∨ (s.gate.opState = .frozen ∧ s.gate.causes.anchor = true) ∨
      ((s.gate.opState = .running ∨ s.gate.opState = .frozen) ∧ s.straps.maint = true) := by
  rw [State.formatPermitted]
  cases s.gate.opState <;> simp

theorem formatBusy_iff (s : State) : s.formatBusy = true ↔
    s.queue.entries ≠ [] ∨ s.engine.work ≠ .idle ∨ s.gate.order ≠ none ∨
      s.intake.pendingCommit = true ∨ ∃ c, s.up.cycle = some c ∧ c.phase = .waitingWrite := by
  have queue : (!s.queue.entries.isEmpty) = true ↔ s.queue.entries ≠ [] := by
    cases s.queue.entries <;> simp
  simp only [State.formatBusy, Bool.or_eq_true, queue, decide_eq_true_eq, Option.isSome_iff_ne_none,
    writeWaits_iff, or_assoc]

/-- Settles O59: FORMAT answers by the first row that fits, and `beginFormat` is what DONE leaves. -/
theorem formatRows : Obligations.FormatRows := by
  intro s b n base allowed bad busy frame hbase hallowed hbad hbusy
  subst hbase
  rw [← formatPermitted_iff] at hallowed
  rw [← formatBusy_iff] at hbusy
  have illegal : bad ↔ windowIllegal (b.zeroExtend 32) n (s.anchorAddr 0) = true := by
    rw [hbad, windowIllegal_iff]
    rfl
  refine ⟨fun mode => exec_of_plain (c := .format b n) rfl frame (unlessBusy_busy mode _), fun h1 h2 => ?_⟩
  have answers {r : Result} {t : State} (answer : answerFormat b n s = plain r t) :
      exec (.format b n) s = .next (t.answered 5 r []) :=
    exec_of_plain (c := .format b n) rfl frame ((unlessBusy_free h1 h2 _).trans answer)
  have unfolded : answerFormat b n s = if s.formatPermitted = false then plain .notPermitted s
      else if windowIllegal (b.zeroExtend 32) n (s.anchorAddr 0) = true then plain .badReq s
      else if s.formatBusy = true then plain .busy s
      else plain .done (beginFormat (b.zeroExtend 32) n s) := rfl
  refine ⟨fun denied => answers ?_, fun permitted isBad => answers ?_, fun permitted good isBusy => answers ?_,
    fun permitted good free => answers ?_⟩
  · rw [unfolded, if_pos (Bool.eq_false_iff.2 (mt hallowed.2 denied))]
  · rw [unfolded, if_neg (by simp [hallowed.1 permitted]), if_pos (illegal.1 isBad)]
  · rw [unfolded, if_neg (by simp [hallowed.1 permitted]), if_neg (mt illegal.2 good), if_pos (hbusy.1 isBusy)]
  · rw [unfolded, if_neg (by simp [hallowed.1 permitted]), if_neg (mt illegal.2 good),
      if_neg (mt hbusy.2 free)]
    rfl

/-! ### Events, counts and clears (R172, R178 to R181, R150) -/

theorem satAdd_toNat (w : Word) (n : Nat) : (satAdd w n).toNat = min (w.toNat + n) 65535 := by
  rw [satAdd, BitVec.toNat_ofNat, Nat.min_comm]
  exact Nat.mod_eq_of_lt (Nat.lt_of_le_of_lt (Nat.min_le_right _ _) (by decide))

theorem Events.raise_flag (ev : Events) (cfg : Settings) (e f : Event) :
    (ev.raise cfg e).flags.getLsbD f.bit = (ev.flags.getLsbD f.bit || decide (f = e)) := by
  rw [Events.raise_flags, BitVec.getLsbD_or, Event.mask_bit]

theorem getLsbD_eventMask (m : Word) (e : Event) :
    (m.extractLsb' 0 13).getLsbD e.bit = m.getLsbD e.bit := by
  rw [BitVec.getLsbD_extractLsb', decide_eq_true e.bit_lt, Bool.true_and, Nat.zero_add]

theorem Events.clear_flag (ev : Events) (cfg : Settings) (m : Word) (e : Event) :
    (ev.clear cfg (m.extractLsb' 0 13)).flags.getLsbD e.bit =
      (ev.flags.getLsbD e.bit && !m.getLsbD e.bit) := by
  rw [Events.clear_flags, BitVec.getLsbD_and, BitVec.getLsbD_not, decide_eq_true e.bit_lt, Bool.true_and,
    getLsbD_eventMask]

theorem Events.clear_level {cfg : Settings} (h : cfg.attnMode = .level) (ev : Events) (mask : BitVec 13) :
    ev.clear cfg mask = { ev with
      flags := ev.flags &&& ~~~ mask, attn := decide (ev.flags &&& ~~~ mask &&& cfg.enables ≠ 0) } := by
  simp only [Events.clear, h, Events.level]

theorem Events.clear_pulse {cfg : Settings} (h : cfg.attnMode = .pulse) (ev : Events) (mask : BitVec 13) :
    ev.clear cfg mask =
      if ev.flags &&& mask &&& cfg.enables ≠ 0 ∧ ev.flags &&& ~~~ mask &&& cfg.enables ≠ 0 then
        { ev with flags := ev.flags &&& ~~~ mask, attn := true, pulse := some cfg.attnWidth.toNat }
      else { ev with flags := ev.flags &&& ~~~ mask } := by
  simp only [Events.clear, h, Events.request]

theorem Events.clear_touches (ev : Events) (cfg : Settings) (mask : BitVec 13) :
    ev.clear cfg mask = { ev with
      flags := (ev.clear cfg mask).flags, attn := (ev.clear cfg mask).attn
      pulse := (ev.clear cfg mask).pulse } := by
  cases mode : cfg.attnMode with
  | level => rw [Events.clear_level mode]
  | pulse =>
    rw [Events.clear_pulse mode]
    split <;> rfl

section
variable {s : State} (frame : s.link.frame = some { taken := none }) (h1 : s.gate.opState ≠ .recovering)
  (h2 : s.gate.opState ≠ .formatting)
include frame h1 h2

theorem exec_clearEvents (m : Word) : exec (.clearEvents m) s =
    .next ((s.setEvents (s.events.clear s.settings (m.extractLsb' 0 13))).answered 2 .done []) :=
  exec_of_plain (c := .clearEvents m) rfl frame (unlessBusy_free h1 h2 _)

theorem exec_clearWatch {u : Byte} {r : Result} {t : State} (answer : answerClearWatch u s = plain r t) :
    exec (.clearWatch u) s = .next (t.answered 1 r []) :=
  exec_of_plain (c := .clearWatch u) rfl frame ((unlessBusy_free h1 h2 _).trans answer)

end

theorem answerClearWatch_above {u : Byte} (h : 3 < u.toNat) (s : State) :
    answerClearWatch u s = plain .badReq s := by
  simp only [answerClearWatch, unitOf_above h]

theorem answerClearWatch_unit {u : Byte} {n : Fin 4} (h : u.toNat = n.val) (s : State) :
    answerClearWatch u s =
      plain .done (s.setWatch (s.watch.put n { s.watch.get n with hits := 0, capture := none })) := by
  simp only [answerClearWatch, h, unitOf_val]

/-- Settles O60: what an event and a clear do to flags, ATTN and the pulse, mode by mode, and the clears of counters
and watch units. -/
theorem clearCommands : Obligations.ClearCommands := by
  refine ⟨⟨rfl, rfl, rfl, rfl, rfl, rfl, rfl, fun _ => rfl, rfl, rfl⟩,
    fun w n => ⟨fun below => if_neg below, if_pos rfl, satAdd_toNat w n⟩,
    fun ev cfg e fs hfs => ?raised, fun _ _ => rfl, fun s frame => ⟨fun busy u =>
      exec_of_plain (c := .clearWatch u) rfl frame (unlessBusy_busy busy _), fun h1 h2 =>
      ⟨fun m => ?events, ?counters, fun u above => exec_clearWatch frame h1 h2 (answerClearWatch_above above s),
        fun u n unit_ => ?watch⟩⟩⟩
  case raised =>
    subst hfs
    refine ⟨Events.raise_flag ev cfg e, ?_⟩
    rw [Events.raise_flags]
    exact ⟨Events.raise_level ev cfg e, Events.raise_request ev cfg e, Events.raise_silent ev cfg e⟩
  case events =>
    refine ⟨_, exec_clearEvents frame h1 h2 m, Events.clear_flag s.events s.settings m, fun level => ?_,
      fun pulse => ?_, ?_⟩
    · rw [State.setEvents_events, Events.clear_level level]
      exact ⟨rfl, rfl⟩
    · rw [State.setEvents_events, Events.clear_flags, Events.clear_pulse pulse]
      split
      · exact ⟨rfl, rfl⟩
      · exact ⟨rfl, rfl⟩
    · exact congrArg s.setEvents (Events.clear_touches s.events s.settings (m.extractLsb' 0 13))
  case counters =>
    exact exec_of_plain (c := .clearCounters) rfl frame (unlessBusy_free h1 h2 _)
  case watch =>
    refine ⟨_, exec_clearWatch frame h1 h2 (answerClearWatch_unit unit_ s), ?_, ?_, ?_, fun m other => ?_, rfl⟩
    · rw [State.setWatch_watch, Four.get_put_same]
    · rw [State.setWatch_watch, Four.get_put_same]
    · rw [State.setWatch_watch, Four.get_put_same]
    · rw [State.setWatch_watch, Four.get_put_other _ _ _ _ other]

end Sys2Proof.Machine
end
